-- ==== Sys2Proof/Word.lean ====
section
/-! DEFINITION. The names and plain values of the part: ports, lanes, lines, slots, bytes and sets of them
(spec/00 "Names" and "Records and lists"). -/

namespace Sys2Proof

/-- A byte on a serial port (R170). -/
abbrev Byte := BitVec 8

/-- A host port P0 to P3; the identity of a host (00 "Names"). -/
abbrev Port := Fin 4

/-- An output lane L0 to L15 (00 "Names"). -/
abbrev Lane := Fin 16

/-- A trip line T0 to T3 (00 "Names"). -/
abbrev Line := Fin 4

/-- A sample slot S0 to S31 (00 "Names"). -/
abbrev Slot := Fin 32

/-- An analog input AIN0 to AIN7 (00 "Names"). -/
abbrev Channel := Fin 8

/-- A set of ports, lines or lanes: for each member, whether it is in (00 "Records and lists": a set holds
each member at most once and has no order, so equal sets are equal data). -/
abbrev IdSet (n : Nat) := Vector Bool n

abbrev PortSet := IdSet 4
abbrev LineSet := IdSet 4
abbrev LaneSet := IdSet 16

/-- The empty set. -/
def IdSet.none (n : Nat) : IdSet n := Vector.replicate n false

end Sys2Proof
end

