-- ==== Sys2Proof/Syntax.lean ====
section
/-! DEFINITION. The commands of the part, one constructor per row of spec/opcode_table.json, and the requests of the
command table (R173). -/

namespace Sys2Proof

/-- The levels of the sampled input pins in one tick: SYNC_IN (R21) and TRIP0 to TRIP3 (R134), true for HIGH,
and AIN0 to AIN7 (R109). DESIGN CHOICE (log 9, unsafe): the level of an analog input is given in steps of the
converter's code, 0 at the low reference and 4095 at the high one; it may lie outside both. -/
structure TickPins where
  syncIn : Bool
  trip   : Vector Bool 4
  ain    : Vector Int 8
  deriving DecidableEq, Repr

/-- A request with its coded parameters, as its payload carries them (R173): a value coded outside the values
of its field is refused RANGE by the command (R169). -/
inductive Request where
  | sessionOpen (silenceLimit resultThreshold : Nat)
  | nop
  | status (selector : Nat)
  | sessionClose
  | tbStart
  | tbStop
  | laneLease (lane : Nat)
  | laneRelease (lane : Nat)
  | laneSet (lane onAt length activeLevel safeLevel tripMask : Nat)
  | groupBegin
  | groupEnd
  | groupCancel
  | sampleAdd (offset channel mode divisor phase maxWait tag : Nat)
  | sampleRemove (slot : Nat)
  | readResults (max : Nat)
  | readEvents (max : Nat)
  | tripClaim (line : Nat)
  | tripRelease (line : Nat)
  | tripSet (line polarity qualify mode : Nat)
  | tripRearm (lanes : Nat)
  | propose (period source syncWindow voteWindow : Nat)
  | vote (id choice : Nat)
  | withdraw (id : Nat)
  deriving DecidableEq, Repr

/-- The commands the part takes, one constructor per row of spec/opcode_table.json. A request row carries the
port it is taken at, the tag of its frame (R170) and its coded parameters (R173). -/
inductive Instr where
  | partReset
  | resetRelease
  | tick (levels : TickPins)
  | wrap
  | graceExpiry
  | syncEdge
  | commitApply
  | lanesResumed
  | lapse (port : Port)
  | proposalCommit
  | proposalExpiry
  | slotFire
  | conversionComplete
  | tripPinSample (line : Line)
  | tripAssertion (line : Line)
  | tripDeassertion (line : Line)
  | transactionBegin (port : Port)
  | byteClocked (port : Port) (byte : Byte)
  | transactionEnd (port : Port)
  | sessionOpen (port : Port) (tag silenceLimit resultThreshold : Nat)
  | nop (port : Port) (tag : Nat)
  | status (port : Port) (tag selector : Nat)
  | sessionClose (port : Port) (tag : Nat)
  | tbStart (port : Port) (tag : Nat)
  | tbStop (port : Port) (tag : Nat)
  | laneLease (port : Port) (tag lane : Nat)
  | laneRelease (port : Port) (tag lane : Nat)
  | laneSet (port : Port) (tag lane onAt length activeLevel safeLevel tripMask : Nat)
  | groupBegin (port : Port) (tag : Nat)
  | groupEnd (port : Port) (tag : Nat)
  | groupCancel (port : Port) (tag : Nat)
  | sampleAdd (port : Port) (tag offset channel mode divisor phase maxWait sampleTag : Nat)
  | sampleRemove (port : Port) (tag slot : Nat)
  | readResults (port : Port) (tag max : Nat)
  | readEvents (port : Port) (tag max : Nat)
  | tripClaim (port : Port) (tag line : Nat)
  | tripRelease (port : Port) (tag line : Nat)
  | tripSet (port : Port) (tag line polarity qualify mode : Nat)
  | tripRearm (port : Port) (tag lanes : Nat)
  | propose (port : Port) (tag period source syncWindow voteWindow : Nat)
  | vote (port : Port) (tag id choice : Nat)
  | withdraw (port : Port) (tag id : Nat)
  deriving DecidableEq, Repr

/-- The row of a request taken at a port with a tag. -/
def Request.toInstr (p : Port) (tag : Nat) : Request → Instr
  | .sessionOpen a b => .sessionOpen p tag a b
  | .nop => .nop p tag
  | .status a => .status p tag a
  | .sessionClose => .sessionClose p tag
  | .tbStart => .tbStart p tag
  | .tbStop => .tbStop p tag
  | .laneLease a => .laneLease p tag a
  | .laneRelease a => .laneRelease p tag a
  | .laneSet a b c d e f => .laneSet p tag a b c d e f
  | .groupBegin => .groupBegin p tag
  | .groupEnd => .groupEnd p tag
  | .groupCancel => .groupCancel p tag
  | .sampleAdd a b c d e f g => .sampleAdd p tag a b c d e f g
  | .sampleRemove a => .sampleRemove p tag a
  | .readResults a => .readResults p tag a
  | .readEvents a => .readEvents p tag a
  | .tripClaim a => .tripClaim p tag a
  | .tripRelease a => .tripRelease p tag a
  | .tripSet a b c d => .tripSet p tag a b c d
  | .tripRearm a => .tripRearm p tag a
  | .propose a b c d => .propose p tag a b c d
  | .vote a b => .vote p tag a b
  | .withdraw a => .withdraw p tag a

/-- The port, tag and request of a request row; none for the rows that are no request. -/
def Instr.request? : Instr → Option (Port × Nat × Request)
  | .partReset => none
  | .resetRelease => none
  | .tick _ => none
  | .wrap => none
  | .graceExpiry => none
  | .syncEdge => none
  | .commitApply => none
  | .lanesResumed => none
  | .lapse _ => none
  | .proposalCommit => none
  | .proposalExpiry => none
  | .slotFire => none
  | .conversionComplete => none
  | .tripPinSample _ => none
  | .tripAssertion _ => none
  | .tripDeassertion _ => none
  | .transactionBegin _ => none
  | .byteClocked _ _ => none
  | .transactionEnd _ => none
  | .sessionOpen p t a b => some (p, t, .sessionOpen a b)
  | .nop p t => some (p, t, .nop)
  | .status p t a => some (p, t, .status a)
  | .sessionClose p t => some (p, t, .sessionClose)
  | .tbStart p t => some (p, t, .tbStart)
  | .tbStop p t => some (p, t, .tbStop)
  | .laneLease p t a => some (p, t, .laneLease a)
  | .laneRelease p t a => some (p, t, .laneRelease a)
  | .laneSet p t a b c d e f => some (p, t, .laneSet a b c d e f)
  | .groupBegin p t => some (p, t, .groupBegin)
  | .groupEnd p t => some (p, t, .groupEnd)
  | .groupCancel p t => some (p, t, .groupCancel)
  | .sampleAdd p t a b c d e f g => some (p, t, .sampleAdd a b c d e f g)
  | .sampleRemove p t a => some (p, t, .sampleRemove a)
  | .readResults p t a => some (p, t, .readResults a)
  | .readEvents p t a => some (p, t, .readEvents a)
  | .tripClaim p t a => some (p, t, .tripClaim a)
  | .tripRelease p t a => some (p, t, .tripRelease a)
  | .tripSet p t a b c d => some (p, t, .tripSet a b c d)
  | .tripRearm p t a => some (p, t, .tripRearm a)
  | .propose p t a b c d => some (p, t, .propose a b c d)
  | .vote p t a b => some (p, t, .vote a b)
  | .withdraw p t a => some (p, t, .withdraw a)

end Sys2Proof
end

