-- ==== Sys2Proof/WellFormed.lean ====
section
/-! DEFINITION. Well-formed commands: every operand is one that the frame of its request can carry (R170, R172, R173).
What a carried value means, and whether it is in range, is the command's own check (R169). -/

namespace Sys2Proof

/-- A value one byte can carry (R172). -/
def fitsByte (n : Nat) : Bool := decide (n < 256)

/-- A value two bytes can carry (R172). -/
def fitsWord (n : Nat) : Bool := decide (n < 65536)

/-- Every parameter fits the bytes the command table gives it (R173). -/
def Request.wellFormed : Request → Bool
  | .sessionOpen limit threshold => fitsWord limit && fitsByte threshold
  | .nop => true
  | .status selector => fitsByte selector
  | .sessionClose => true
  | .tbStart => true
  | .tbStop => true
  | .laneLease lane => fitsByte lane
  | .laneRelease lane => fitsByte lane
  | .laneSet lane onAt length active safe mask =>
      fitsByte lane && fitsWord onAt && fitsWord length && fitsByte active && fitsByte safe && fitsByte mask
  | .groupBegin => true
  | .groupEnd => true
  | .groupCancel => true
  | .sampleAdd offset channel mode divisor phase maxWait tag =>
      fitsWord offset && fitsByte channel && fitsByte mode && fitsByte divisor && fitsByte phase
        && fitsByte maxWait && fitsByte tag
  | .sampleRemove slot => fitsByte slot
  | .readResults max => fitsByte max
  | .readEvents max => fitsByte max
  | .tripClaim line => fitsByte line
  | .tripRelease line => fitsByte line
  | .tripSet line polarity qualify mode =>
      fitsByte line && fitsByte polarity && fitsByte qualify && fitsByte mode
  | .tripRearm lanes => fitsWord lanes
  | .propose period source window votes =>
      fitsWord period && fitsByte source && fitsByte window && fitsByte votes
  | .vote id choice => fitsByte id && fitsByte choice
  | .withdraw id => fitsByte id

/-- A request row is well formed when its tag fits a byte (R170) and its parameters fit their bytes (R173); every
other row is well formed by its operands' types. -/
def Instr.wellFormed (i : Instr) : Bool :=
  match i.request? with
  | none => true
  | some (_, tag, r) => fitsByte tag && r.wellFormed

end Sys2Proof
end

