-- ==== Sys2Proof/Decode.lean ====
section
/-! DEFINITION. Reading a request out of a receive buffer (R167, R170, R173), and writing the frame of a request; and
`decodeTableWord`. The table of commands gives no row any bits, so no word spells a command (log 27). -/

namespace Sys2Proof

/-- The command a word spells by the table's bits. No row of spec/opcode_table.json has bits, so no word spells one. -/
def decodeTableWord (_nbits _w : Nat) : Option Instr := none

/-- One byte on the wire (R172). -/
def byteOf (n : Nat) : Byte := BitVec.ofNat 8 n

/-- Two bytes, most significant first (R172). -/
def wordOf (n : Nat) : List Byte := [byteOf (n / 256), byteOf n]

/-- The value of two bytes, most significant first (R172). -/
def ofWord (hi lo : Byte) : Nat := hi.toNat * 256 + lo.toNat

/-- One shift of the CRC register: left by one, combined with 0x2F when the bit shifted out is 1 (R170). -/
def crcShift (r : Byte) : Byte := if r.msb then (r <<< 1) ^^^ 0x2F#8 else r <<< 1

/-- One byte taken into the CRC register: combined by exclusive-or, then shifted eight times (R170). -/
def crcByte (r b : Byte) : Byte :=
  crcShift (crcShift (crcShift (crcShift (crcShift (crcShift (crcShift (crcShift (r ^^^ b))))))))

/-- The CRC-8 of a run of bytes, from the initial value 0xFF (R170). -/
def crc8 (bytes : List Byte) : Byte := bytes.foldl crcByte 0xFF#8

/-- The command code of a request (R173). -/
def Request.code : Request → Byte
  | .sessionOpen .. => 0x01#8
  | .nop => 0x02#8
  | .status .. => 0x03#8
  | .sessionClose => 0x04#8
  | .tbStart => 0x10#8
  | .tbStop => 0x11#8
  | .laneLease .. => 0x20#8
  | .laneRelease .. => 0x21#8
  | .laneSet .. => 0x22#8
  | .groupBegin => 0x30#8
  | .groupEnd => 0x31#8
  | .groupCancel => 0x32#8
  | .sampleAdd .. => 0x40#8
  | .sampleRemove .. => 0x41#8
  | .readResults .. => 0x50#8
  | .readEvents .. => 0x51#8
  | .tripClaim .. => 0x60#8
  | .tripRelease .. => 0x61#8
  | .tripSet .. => 0x62#8
  | .tripRearm .. => 0x63#8
  | .propose .. => 0x70#8
  | .vote .. => 0x71#8
  | .withdraw .. => 0x72#8

/-- The payload length L of a command code; none for a code that is not in the table (R173). -/
def requiredLength (code : Byte) : Option Nat :=
  match code.toNat with
  | 0x01 => some 3
  | 0x02 => some 0
  | 0x03 => some 1
  | 0x04 => some 0
  | 0x10 => some 0
  | 0x11 => some 0
  | 0x20 => some 1
  | 0x21 => some 1
  | 0x22 => some 8
  | 0x30 => some 0
  | 0x31 => some 0
  | 0x32 => some 0
  | 0x40 => some 8
  | 0x41 => some 1
  | 0x50 => some 1
  | 0x51 => some 1
  | 0x60 => some 1
  | 0x61 => some 1
  | 0x62 => some 4
  | 0x63 => some 2
  | 0x70 => some 5
  | 0x71 => some 2
  | 0x72 => some 1
  | _ => none

/-- The payload of a request, its fields in the table's order (R173). -/
def Request.payload : Request → List Byte
  | .sessionOpen limit threshold => wordOf limit ++ [byteOf threshold]
  | .nop => []
  | .status selector => [byteOf selector]
  | .sessionClose => []
  | .tbStart => []
  | .tbStop => []
  | .laneLease lane => [byteOf lane]
  | .laneRelease lane => [byteOf lane]
  | .laneSet lane onAt length active safe mask =>
      [byteOf lane] ++ wordOf onAt ++ wordOf length ++ [byteOf active, byteOf safe, byteOf mask]
  | .groupBegin => []
  | .groupEnd => []
  | .groupCancel => []
  | .sampleAdd offset channel mode divisor phase maxWait tag =>
      wordOf offset ++ [byteOf channel, byteOf mode, byteOf divisor, byteOf phase, byteOf maxWait, byteOf tag]
  | .sampleRemove slot => [byteOf slot]
  | .readResults max => [byteOf max]
  | .readEvents max => [byteOf max]
  | .tripClaim line => [byteOf line]
  | .tripRelease line => [byteOf line]
  | .tripSet line polarity qualify mode => [byteOf line, byteOf polarity, byteOf qualify, byteOf mode]
  | .tripRearm lanes => wordOf lanes
  | .propose period source window votes => wordOf period ++ [byteOf source, byteOf window, byteOf votes]
  | .vote id choice => [byteOf id, byteOf choice]
  | .withdraw id => [byteOf id]

/-- The request a command code and a payload of that command's length carry (R173). -/
def decodePayload (code : Byte) (payload : List Byte) : Option Request :=
  match code.toNat, payload with
  | 0x01, [l1, l0, t] => some (.sessionOpen (ofWord l1 l0) t.toNat)
  | 0x02, [] => some .nop
  | 0x03, [s] => some (.status s.toNat)
  | 0x04, [] => some .sessionClose
  | 0x10, [] => some .tbStart
  | 0x11, [] => some .tbStop
  | 0x20, [l] => some (.laneLease l.toNat)
  | 0x21, [l] => some (.laneRelease l.toNat)
  | 0x22, [l, o1, o0, n1, n0, a, s, m] =>
      some (.laneSet l.toNat (ofWord o1 o0) (ofWord n1 n0) a.toNat s.toNat m.toNat)
  | 0x30, [] => some .groupBegin
  | 0x31, [] => some .groupEnd
  | 0x32, [] => some .groupCancel
  | 0x40, [o1, o0, c, m, d, ph, w, t] =>
      some (.sampleAdd (ofWord o1 o0) c.toNat m.toNat d.toNat ph.toNat w.toNat t.toNat)
  | 0x41, [s] => some (.sampleRemove s.toNat)
  | 0x50, [m] => some (.readResults m.toNat)
  | 0x51, [m] => some (.readEvents m.toNat)
  | 0x60, [l] => some (.tripClaim l.toNat)
  | 0x61, [l] => some (.tripRelease l.toNat)
  | 0x62, [l, p, q, m] => some (.tripSet l.toNat p.toNat q.toNat m.toNat)
  | 0x63, [l1, l0] => some (.tripRearm (ofWord l1 l0))
  | 0x70, [p1, p0, s, w, v] => some (.propose (ofWord p1 p0) s.toNat w.toNat v.toNat)
  | 0x71, [i, c] => some (.vote i.toNat c.toNat)
  | 0x72, [i] => some (.withdraw i.toNat)
  | _, _ => none

/-- A request frame less its CRC: code, tag, L and payload (R170). -/
def Request.frameBody (tag : Nat) (r : Request) : List Byte :=
  [r.code, byteOf tag, byteOf r.payload.length] ++ r.payload

/-- The request frame of a request with a tag (R170). -/
def Request.frame (tag : Nat) (r : Request) : List Byte :=
  r.frameBody tag ++ [crc8 (r.frameBody tag)]

/-- Why a frame is answered LINK_ERROR (R171); the codes are CRC 0, SHORT 1. -/
inductive LinkReason where
  | crc
  | short
  deriving DecidableEq, Repr

/-- What the link makes of a receive buffer (R167). -/
inductive Judgement where
  | noRequest
  | linkError (tag : Byte) (reason : LinkReason)
  | unknown (tag : Byte)
  | badLength (tag : Byte) (required : Nat)
  | taken (tag : Nat) (request : Request)
  deriving DecidableEq, Repr

/-- The judgement of a buffer of at least three bytes, whose first is no idle byte (R167, from the second row on). -/
def judgeRequest (code tag len : Byte) (body : List Byte) : Judgement :=
  if body.length < len.toNat + 1 then .linkError tag .short
  else if body[len.toNat]? ≠ some (crc8 (code :: tag :: len :: body.take len.toNat)) then .linkError tag .crc
  else
    match requiredLength code with
    | none => .unknown tag
    | some n =>
      if len.toNat ≠ n then .badLength tag n
      else
        match decodePayload code (body.take n) with
        | some r => .taken tag.toNat r
        | none => .unknown tag

/-- The link's judgement of a receive buffer, its steps in the order of R167. A frame answered LINK_ERROR carries
the tag 0x00 when byte 2 was not received (R171). -/
def judgeBuffer : List Byte → Judgement
  | [] => .noRequest
  | code :: rest =>
    if code = 0x00#8 then .noRequest
    else
      match rest with
      | [] => .linkError 0x00#8 .short
      | [tag] => .linkError tag .short
      | tag :: len :: body => judgeRequest code tag len body

end Sys2Proof
end

