-- ==== Sys2Proof/Config.lean ====
section
/-! DEFINITION. The constants of the part: capacities, times and wrap-around points, each with the rule that fixes it.
The spec leaves no value of an instruction's result open, so there is no free constant here. -/

namespace Sys2Proof.Config

/-- The tick stamp wraps from 4294967295 to 0 (R2). -/
def stampModulus : Nat := 4294967296

/-- seq wraps from 65535 to 0 (R7). -/
def seqModulus : Nat := 65536

/-- The interval and the interval counter saturate here (R20, R22). -/
def intervalMax : Nat := 65535

/-- The slip at which the lock is lost (R29). -/
def slipLimit : Nat := 4

/-- SYNC_OUT is HIGH for this many counter values from 0 (R10). -/
def syncPulse : Nat := 8

/-- The commit list holds at most this many entries (R70). -/
def listCapacity : Nat := 24

/-- At most this many entries of one port (R70). -/
def portShare : Nat := 12

/-- Requests the converter queue holds at most (R105). -/
def queueCapacity : Nat := 8

/-- Ticks a conversion lasts (R109). -/
def conversionTicks : Nat := 40

/-- The value of max_wait that means no limit (R84, R107). -/
def noWaitLimit : Nat := 255

/-- The highest converter code (R109). -/
def codeMax : Nat := 4095

/-- Result records a port's queue holds at most (R120). -/
def resultCapacity : Nat := 16

/-- Event records a port's queue holds at most (R120). -/
def eventCapacity : Nat := 8

/-- A tally stays here once it has reached it (R124). -/
def tallyMax : Nat := 255

/-- Bytes the receive buffer of a port holds (R166). -/
def rxCapacity : Nat := 28

/-- P after part reset (R3). -/
def resetPeriod : Nat := 4000

/-- W after part reset (R3). -/
def resetWindow : Nat := 16

end Sys2Proof.Config
end

