-- ==== Sys2Proof/Machine/State.lean ====
section
/-! DEFINITION. The state of the part: every record the chapters of spec/ give it, as plain data, with the value each
piece of state has after a part reset, and the queue of the commands that are waiting. -/

namespace Sys2Proof.Machine

/-! ### Levels and the timebase -/

/-- A level of a lane pin: HIGH, LOW or OPEN (00 "Words in capitals"), in the order R172 codes them. -/
inductive Level where
  | high
  | low
  | hiz
  deriving DecidableEq, Repr

/-- An active level: a lane's window is between two driven levels (R51, R61). -/
inductive ActiveLevel where
  | high
  | low
  deriving DecidableEq, Repr

/-- The timebase's states (R3). -/
inductive TbState where
  | stopped
  | free
  | acquiring
  | locked
  | coasting
  deriving DecidableEq, Repr

/-- The timebase's sources (R3). -/
inductive Source where
  | free
  | follow
  deriving DecidableEq, Repr

/-- The timebase record (R3): P is `period`, W is `window`. -/
structure Timebase where
  state   : TbState
  source  : Source
  period  : Nat
  window  : Nat
  counter : Nat
  seq     : Nat
  deriving DecidableEq, Repr

/-- The timebase record after part reset (R3). -/
def Timebase.reset : Timebase :=
  { state := .stopped, source := .free, period := Config.resetPeriod, window := Config.resetWindow,
    counter := 0, seq := 0 }

/-- The sync monitor record (R20). `grace` is true when open. -/
structure SyncMonitor where
  slip            : Nat
  interval        : Nat
  phaseError      : Int
  intervalCounter : Option Nat
  grace           : Bool
  lockedOnce      : Bool
  deriving DecidableEq, Repr

/-- The cleared sync monitor, which is also its value after part reset (R20). -/
def SyncMonitor.cleared : SyncMonitor :=
  { slip := 0, interval := 0, phaseError := 0, intervalCounter := none, grace := false, lockedOnce := false }

/-! ### Sessions and lanes -/

/-- Session states CLOSED, OPEN, LAPSED (R36). -/
inductive SessionState where
  | closed
  | opened
  | lapsed
  deriving DecidableEq, Repr

/-- A session record (R36). -/
structure Session where
  state           : SessionState
  silenceLimit    : Option Nat
  silenceCount    : Option Nat
  resultThreshold : Option Nat
  groupOpen       : Bool
  deriving DecidableEq, Repr

/-- A session record after part reset and after a close (R36, R41). -/
def Session.reset : Session :=
  { state := .closed, silenceLimit := none, silenceCount := none, resultThreshold := none, groupOpen := false }

/-- A lane's settings (R51). -/
structure LaneSettings where
  onAt        : Nat
  length      : Nat
  activeLevel : ActiveLevel
  safeLevel   : Level
  tripMask    : LineSet
  deriving DecidableEq, Repr

/-- The fresh-lease defaults (R51). -/
def LaneSettings.fresh : LaneSettings :=
  { onAt := 0, length := 0, activeLevel := .high, safeLevel := .low, tripMask := IdSet.none 4 }

/-- A lane's state with the fields that R51 makes present in it: the owner in LEASED and TRIPPED, trip_cause and
rearm_pending in TRIPPED (empty and clear in every other state). -/
inductive LaneStatus where
  | free
  | leased (owner : Port)
  | tripped (owner : Port) (cause : LineSet) (rearm : Bool)
  | orphaned
  deriving DecidableEq, Repr

/-- A lane record (R51). -/
structure LaneRec where
  status   : LaneStatus
  settings : LaneSettings
  deriving DecidableEq, Repr

/-- A FREE lane: its record after part reset, after a release and after a close (R51, R59, R66). -/
def LaneRec.reset : LaneRec := { status := .free, settings := .fresh }

/-! ### The commit list -/

/-- The kind of an entry with its target and, for LANE_SET, its settings (R69). -/
inductive EntryAction where
  | laneSet (lane : Lane) (settings : LaneSettings)
  | sampleAdd (slot : Slot)
  | sampleRemove (slot : Slot)
  deriving DecidableEq, Repr

/-- An entry of the commit list (R69). -/
structure Entry where
  port     : Port
  action   : EntryAction
  held     : Bool
  released : Bool
  deriving DecidableEq, Repr

/-! ### The sample schedule and the converter -/

/-- The states of a slot that is not EMPTY (R84). -/
inductive SlotState where
  | staged
  | live
  | retiring
  deriving DecidableEq, Repr

/-- A slot's cadence (R84): divisor and phase are present in DIVIDED only. -/
inductive SlotMode where
  | once
  | every
  | divided (divisor phase : Nat)
  deriving DecidableEq, Repr

/-- The record of a slot that is not EMPTY (R84). An EMPTY slot holds no field but its state and is an absent record. -/
structure SlotRec where
  state     : SlotState
  owner     : Port
  tag       : Nat
  offset    : Nat
  channel   : Channel
  mode      : SlotMode
  maxWait   : Nat
  lastFired : Option Nat
  deriving DecidableEq, Repr

/-- A request of the converter (R104). -/
structure ConvRequest where
  owner       : Option Port
  slot        : Slot
  tag         : Nat
  channel     : Channel
  seq         : Nat
  offset      : Nat
  maxWait     : Nat
  triggerTime : Nat
  deriving DecidableEq, Repr

/-- A conversion in flight: the request, the wait fixed at its start (R107), the captured code (R109), and the ticks
since its start (the converter's count of the conversion time, R1; log 18). -/
structure Conversion where
  request : ConvRequest
  wait    : Nat
  capture : Nat
  elapsed : Nat
  deriving DecidableEq, Repr

/-- The converter (R103): in_flight and capture are present exactly while its state is CONVERTING, so an absent
`inFlight` is the state IDLE. -/
structure Converter where
  inFlight : Option Conversion
  queue    : List ConvRequest
  deriving DecidableEq, Repr

/-- The converter after part reset (R103). -/
def Converter.reset : Converter := { inFlight := none, queue := [] }

/-! ### Records and their delivery -/

/-- Reasons of a MISSED record (R121). -/
inductive MissReason where
  | queueFull
  | stale
  | shortFrame
  deriving DecidableEq, Repr

/-- The status of a result record with the fields present in it (R121). -/
inductive ResultStatus where
  | ok (value wait : Nat)
  | missed (reason : MissReason)
  | aborted
  deriving DecidableEq, Repr

/-- A result record (R121). -/
structure ResultRec where
  tag        : Nat
  slot       : Slot
  channel    : Channel
  seq        : Nat
  offset     : Nat
  status     : ResultStatus
  lostBefore : Nat
  deriving DecidableEq, Repr

/-- The source a proposal names, with the sync window present for FOLLOW only (R150). -/
inductive NewSource where
  | free
  | follow (syncWindow : Nat)
  deriving DecidableEq, Repr

/-- How a proposal ended (R162); first seq is present for COMMITTED only. -/
inductive ProposalOutcome where
  | committed (firstSeq : Nat)
  | rejected
  | expired
  | withdrawn
  deriving DecidableEq, Repr

/-- The eleven event kinds with the fields of each (8.3, R176). -/
inductive Event where
  | timebaseStarted
  | timebaseStopped (by_ : Port)
  | syncLocked (first : Bool)
  | syncLost (interval : Nat)
  | portLapsed (port : Port) (lanesOrphaned : Nat)
  | groupApplied (entriesApplied : Nat)
  | trip (line : Line) (lanes : LaneSet)
  | tripCleared (line : Line)
  | lanesResumed (lanes : LaneSet)
  | proposalOpened (id : Nat) (proposer : Port) (period : Nat) (source : NewSource) (voteWindow : Nat) (voter : Bool)
  | proposalEnded (id : Nat) (outcome : ProposalOutcome)
  deriving DecidableEq, Repr

/-- An event record (R122). -/
structure EventRec where
  event      : Event
  seq        : Nat
  lostBefore : Nat
  deriving DecidableEq, Repr

/-- What delivery holds for a port (R120). -/
structure Delivery where
  results     : List ResultRec
  events      : List EventRec
  lostResults : Nat
  lostEvents  : Nat
  deriving DecidableEq, Repr

/-- Delivery's record of a port after part reset and after a session end (R120, R130). -/
def Delivery.reset : Delivery := { results := [], events := [], lostResults := 0, lostEvents := 0 }

/-! ### Trip lines -/

/-- A line's ownership, with the owner present in OWNED only (R132). -/
inductive Ownership where
  | free
  | owned (owner : Port)
  | orphaned
  deriving DecidableEq, Repr

/-- Polarities (R132). -/
inductive Polarity where
  | activeHigh
  | activeLow
  deriving DecidableEq, Repr

/-- Recovery modes (R132). -/
inductive TripMode where
  | latch
  | follow
  deriving DecidableEq, Repr

/-- Detect states (R132). -/
inductive Detect where
  | idle
  | qualifyingOn
  | asserted
  | qualifyingOff
  deriving DecidableEq, Repr

/-- A line's settings (R132). -/
structure TripSettings where
  polarity : Polarity
  qualify  : Nat
  mode     : TripMode
  deriving DecidableEq, Repr

/-- The reset settings of a line (R132, R141). -/
def TripSettings.reset : TripSettings := { polarity := .activeHigh, qualify := 0, mode := .latch }

/-- A trip line's record (R132). -/
structure TripLine where
  ownership    : Ownership
  settings     : TripSettings
  detect       : Detect
  qualifyCount : Nat
  informed     : PortSet
  deriving DecidableEq, Repr

/-- A FREE line: its record after part reset and after every return to FREE (R132, R133). -/
def TripLine.reset : TripLine :=
  { ownership := .free, settings := .reset, detect := .idle, qualifyCount := 0, informed := IdSet.none 4 }

/-! ### Agreement -/

/-- Proposal states OPEN and ACCEPTED (R150). -/
inductive ProposalState where
  | opened
  | accepted
  deriving DecidableEq, Repr

/-- A present proposal (R150). -/
structure Proposal where
  id         : Nat
  proposer   : Port
  period     : Nat
  source     : NewSource
  voteWindow : Nat
  framesLeft : Nat
  electorate : PortSet
  accepted   : PortSet
  state      : ProposalState
  deriving DecidableEq, Repr

/-- The agreement unit (R150). -/
structure Agreement where
  proposal : Option Proposal
  nextId   : Nat
  deriving DecidableEq, Repr

/-- The agreement unit after part reset (R150). -/
def Agreement.reset : Agreement := { proposal := none, nextId := 1 }

/-! ### Host links -/

/-- Status codes, in the order R174 numbers them from 0x00. -/
inductive Status where
  | ok
  | none
  | linkError
  | unknown
  | badLength
  | noSession
  | lapsed
  | range
  | notOwner
  | held
  | busy
  | stopped
  | inUse
  | doesNotFit
  | tableFull
  | listFull
  | quota
  | stillAsserted
  | noGroup
  | noProposal
  | notEligible
  | alreadyVoted
  deriving DecidableEq, Repr

/-- A response: its frame's tag, status and payload (R170). -/
structure Response where
  tag     : Byte
  status  : Status
  payload : List Byte
  deriving DecidableEq, Repr

/-- The NONE frame's contents (R168). -/
def Response.none : Response := { tag := 0x00#8, status := .none, payload := [] }

/-- A port's link: SELn low or not, a transaction under way or not, the receive buffer, the whole bytes clocked and
the byte last shifted out in the transaction, and the held response (R166, R168). -/
structure Link where
  selLow  : Bool
  active  : Bool
  rx      : List Byte
  clocked : Nat
  lastOut : Option Byte
  held    : Response
  deriving DecidableEq, Repr

/-- A link after part reset, its SELn high (R168; log 10). -/
def Link.reset : Link :=
  { selLow := false, active := false, rx := [], clocked := 0, lastOut := none, held := .none }

/-! ### Pins, what a tick still owes, and the whole -/

/-- The input levels of the current tick, true for HIGH: SYNC_IN (R21), TRIP0 to TRIP3 (R134), AIN0 to AIN7 (R109). -/
structure Pins where
  syncIn : Bool
  trip   : Vector Bool 4
  ain    : Vector Int 8
  deriving DecidableEq, Repr

/-- The pins before the first tick: the sample of SYNC_IN counts as HIGH (R21). DESIGN CHOICE (log 10, unsafe): the
trip pins LOW, which nothing judges before the first tick, and the analog levels 0. -/
def Pins.reset : Pins :=
  { syncIn := true, trip := Vector.replicate 4 false, ain := Vector.replicate 8 0 }

/-- The model's own record of the happenings that the current tick has brought and that are not yet taken (DESIGN
CHOICE, log 3): the wrap, the SYNC_IN edge, each line's sample; of the frame boundary just made, the responses of the
schedule, the commit list, the agreement unit and the trip monitor, and the SHORT_FRAME records that the schedule's
response hands over, each with its owner (R92, R96); and the SYNC_LOCKED of the edge just accepted, with its *first*, while
a lapse that may come before it is due (R30, R34; log 29). -/
structure Due where
  wrap      : Bool
  edge      : Bool
  trip      : Vector Bool 4
  schedule  : Bool
  cut       : List (Port × ResultRec)
  locked    : Option Bool
  commit    : Bool
  agreement : Bool
  resume    : Bool
  deriving DecidableEq, Repr

/-- Nothing is due. -/
def Due.none : Due :=
  { wrap := false, edge := false, trip := Vector.replicate 4 false, schedule := false, cut := [], locked := Option.none,
    commit := false, agreement := false, resume := false }

/-- The state of the part, and the queue of the commands waiting to be taken, first in first out. -/
structure State where
  inReset     : Bool
  tickStamp   : Nat
  tb          : Timebase
  sync        : SyncMonitor
  sessions    : Vector Session 4
  lanes       : Vector LaneRec 16
  commits     : List Entry
  groupReport : Vector Bool 4
  slots       : Vector (Option SlotRec) 32
  conv        : Converter
  delivery    : Vector Delivery 4
  trips       : Vector TripLine 4
  agreement   : Agreement
  links       : Vector Link 4
  pins        : Pins
  due         : Due
  pending     : List Instr
  deriving DecidableEq, Repr

/-- The part just after a part reset, RESET_N high again and no tick taken yet (R1, R3, R20, R36, R51, R70, R78, R84,
R103, R120, R132, R150, R168; log 1). -/
def State.reset : State :=
  { inReset := false
    tickStamp := 0
    tb := .reset
    sync := .cleared
    sessions := Vector.replicate 4 .reset
    lanes := Vector.replicate 16 .reset
    commits := []
    groupReport := Vector.replicate 4 false
    slots := Vector.replicate 32 none
    conv := .reset
    delivery := Vector.replicate 4 .reset
    trips := Vector.replicate 4 .reset
    agreement := .reset
    links := Vector.replicate 4 .reset
    pins := .reset
    due := .none
    pending := [] }

/-- Why the part stops. No rule of spec/ stops it, so there is no reason (log 15, safe: no command ends in a fault). -/
inductive Fault where
  deriving DecidableEq, Repr

/-- Why a command has no meaning. -/
inductive Refusal where
  /-- Raised by exec alone, for a command whose meaning is not written yet; safe, the model stops where the part
  goes on. No arm raises it now. -/
  | notModelled (mnemonic : String)
  deriving DecidableEq, Repr

end Sys2Proof.Machine
end

