-- ==== Sys2Proof/Machine/Sets.lean ====
section
/-! DEFINITION. Sets of ports, lines and lanes, and the update of one entry of a table. -/

namespace Sys2Proof.Machine

/-- The set of the members a test picks out. -/
def setOf {n : Nat} (f : Fin n → Bool) : IdSet n := Vector.ofFn f

/-- The set with one member. -/
def single {n : Nat} (i : Fin n) : IdSet n := setOf fun j => decide (j = i)

/-- A set with one member put in. -/
def insertId {n : Nat} (s : IdSet n) (i : Fin n) : IdSet n := setOf fun j => s[j] || decide (j = i)

/-- A set with one member taken out. -/
def eraseId {n : Nat} (s : IdSet n) (i : Fin n) : IdSet n := setOf fun j => s[j] && !decide (j = i)

/-- The members both sets hold. -/
def inter {n : Nat} (s t : IdSet n) : IdSet n := setOf fun j => s[j] && t[j]

/-- The members either set holds. -/
def union {n : Nat} (s t : IdSet n) : IdSet n := setOf fun j => s[j] || t[j]

/-- The members of the first set that the second does not hold. -/
def minus {n : Nat} (s t : IdSet n) : IdSet n := setOf fun j => s[j] && !t[j]

/-- Whether a test holds of some index. -/
def someId {n : Nat} (f : Fin n → Bool) : Bool := (List.finRange n).any f

/-- Whether a test holds of every index. -/
def everyId {n : Nat} (f : Fin n → Bool) : Bool := (List.finRange n).all f

/-- Whether a set has a member. -/
def nonempty {n : Nat} (s : IdSet n) : Bool := someId fun i => s[i]

/-- The members of a set in ascending order. -/
def members {n : Nat} (s : IdSet n) : List (Fin n) := (List.finRange n).filter fun i => s[i]

/-- The number whose bit n is set for member n (R172). -/
def setValue {n : Nat} (s : IdSet n) : Nat := ((members s).map fun i => 2 ^ i.val).sum

/-- The set whose member n is bit n of a number (R172). -/
def setOfValue (n w : Nat) : IdSet n := setOf fun i => w.testBit i.val

/-- A table with one entry replaced by a function of itself. -/
def update {α : Type} {n : Nat} (v : Vector α n) (i : Fin n) (f : α → α) : Vector α n := v.set i (f v[i])

/-- The table of the values of a function. -/
def tabulate {α : Type} {n : Nat} (f : Fin n → α) : Vector α n := Vector.ofFn f

end Sys2Proof.Machine
end

