-- ==== Sys2Proof/Machine/Operands.lean ====
section
/-! DEFINITION. The coding of fields: what a coded parameter of a request names (R169, R172, R173), and the bytes of
every field, record and frame the part sends (R170, R172, R175, R176). -/

namespace Sys2Proof.Machine

/-! ### Parameters: what a code names, or none when it is outside the values of its field (R169) -/

def portOf? (n : Nat) : Option Port := if h : n < 4 then some ⟨n, h⟩ else none

def laneOf? (n : Nat) : Option Lane := if h : n < 16 then some ⟨n, h⟩ else none

def lineOf? (n : Nat) : Option Line := if h : n < 4 then some ⟨n, h⟩ else none

def slotOf? (n : Nat) : Option Slot := if h : n < 32 then some ⟨n, h⟩ else none

def channelOf? (n : Nat) : Option Channel := if h : n < 8 then some ⟨n, h⟩ else none

/-- A set of trip lines: bits 4 to 7 are clear (R172). -/
def lineSetOf? (n : Nat) : Option LineSet := if n < 16 then some (setOfValue 4 n) else none

/-- A set of lanes: every value of two bytes is one (R172). -/
def laneSetOf (n : Nat) : LaneSet := setOfValue 16 n

/-- HIGH 0, LOW 1; an active level of OPEN is out of range (R61). -/
def activeLevelOf? : Nat → Option ActiveLevel
  | 0 => some .high
  | 1 => some .low
  | _ => none

/-- HIGH 0, LOW 1, OPEN 2 (R172). -/
def levelOf? : Nat → Option Level
  | 0 => some .high
  | 1 => some .low
  | 2 => some .hiz
  | _ => none

/-- FREE 0, FOLLOW 1, in the order of R3's table (R172). -/
def sourceOf? : Nat → Option Source
  | 0 => some .free
  | 1 => some .follow
  | _ => none

/-- ONCE 0, EVERY 1, DIVIDED 2; divisor and phase are judged and kept in DIVIDED only (R86). -/
def slotModeOf? (mode divisor phase : Nat) : Option SlotMode :=
  match mode with
  | 0 => some .once
  | 1 => some .every
  | 2 => if 2 ≤ divisor ∧ divisor ≤ 255 ∧ phase < divisor then some (.divided divisor phase) else none
  | _ => none

/-- ACTIVE_HIGH 0, ACTIVE_LOW 1 (R132, R172). -/
def polarityOf? : Nat → Option Polarity
  | 0 => some .activeHigh
  | 1 => some .activeLow
  | _ => none

/-- LATCH 0, FOLLOW 1 (R132, R172). -/
def tripModeOf? : Nat → Option TripMode
  | 0 => some .latch
  | 1 => some .follow
  | _ => none

/-- The choices of `vote` (R173). -/
inductive Choice where
  | accept
  | reject
  deriving DecidableEq, Repr

/-- ACCEPT 0, REJECT 1 (R173). -/
def choiceOf? : Nat → Option Choice
  | 0 => some .accept
  | 1 => some .reject
  | _ => none

/-- The selectors of `status` (R42). -/
inductive Selector where
  | part
  | session
  | lanes
  | trips
  | slots
  deriving DecidableEq, Repr

/-- PART 0, SESSION 1, LANES 2, TRIPS 3, SLOTS 4 (R173). -/
def selectorOf? : Nat → Option Selector
  | 0 => some .part
  | 1 => some .session
  | 2 => some .lanes
  | 3 => some .trips
  | 4 => some .slots
  | _ => none

/-! ### Codes of enumerated values: the value's place in its record table's list (R172) -/

def Level.code : Level → Nat
  | .high => 0
  | .low => 1
  | .hiz => 2

def ActiveLevel.code : ActiveLevel → Nat
  | .high => 0
  | .low => 1

def TbState.code : TbState → Nat
  | .stopped => 0
  | .free => 1
  | .acquiring => 2
  | .locked => 3
  | .coasting => 4

def Source.code : Source → Nat
  | .free => 0
  | .follow => 1

def SessionState.code : SessionState → Nat
  | .closed => 0
  | .opened => 1
  | .lapsed => 2

def LaneStatus.code : LaneStatus → Nat
  | .free => 0
  | .leased _ => 1
  | .tripped _ _ _ => 2
  | .orphaned => 3

/-- The slot states EMPTY 0, STAGED 1, LIVE 2, RETIRING 3; EMPTY is an absent record. -/
def SlotState.code : SlotState → Nat
  | .staged => 1
  | .live => 2
  | .retiring => 3

def SlotMode.code : SlotMode → Nat
  | .once => 0
  | .every => 1
  | .divided _ _ => 2

def Ownership.code : Ownership → Nat
  | .free => 0
  | .owned _ => 1
  | .orphaned => 2

def Polarity.code : Polarity → Nat
  | .activeHigh => 0
  | .activeLow => 1

def TripMode.code : TripMode → Nat
  | .latch => 0
  | .follow => 1

def Detect.code : Detect → Nat
  | .idle => 0
  | .qualifyingOn => 1
  | .asserted => 2
  | .qualifyingOff => 3

def ProposalState.code : ProposalState → Nat
  | .opened => 0
  | .accepted => 1

def NewSource.code : NewSource → Nat
  | .free => 0
  | .follow _ => 1

/-- COMMITTED 0, REJECTED 1, EXPIRED 2, WITHDRAWN 3 (R176). -/
def ProposalOutcome.code : ProposalOutcome → Nat
  | .committed _ => 0
  | .rejected => 1
  | .expired => 2
  | .withdrawn => 3

/-- QUEUE_FULL 0, STALE 1, SHORT_FRAME 2 (R175). -/
def MissReason.code : MissReason → Nat
  | .queueFull => 0
  | .stale => 1
  | .shortFrame => 2

/-- OK 0, MISSED 1, ABORTED 2 (R175). -/
def ResultStatus.code : ResultStatus → Nat
  | .ok _ _ => 0
  | .missed _ => 1
  | .aborted => 2

/-- TIMEBASE_STARTED 0 to PROPOSAL_ENDED 10 (R176). -/
def Event.code : Event → Nat
  | .timebaseStarted => 0
  | .timebaseStopped _ => 1
  | .syncLocked _ => 2
  | .syncLost _ => 3
  | .portLapsed _ _ => 4
  | .groupApplied _ => 5
  | .trip _ _ => 6
  | .tripCleared _ => 7
  | .lanesResumed _ => 8
  | .proposalOpened _ _ _ _ _ _ => 9
  | .proposalEnded _ _ => 10

/-- The status codes 0x00 to 0x15 (R174). -/
def Status.code : Status → Nat
  | .ok => 0x00
  | .none => 0x01
  | .linkError => 0x02
  | .unknown => 0x03
  | .badLength => 0x04
  | .noSession => 0x05
  | .lapsed => 0x06
  | .range => 0x07
  | .notOwner => 0x08
  | .held => 0x09
  | .busy => 0x0A
  | .stopped => 0x0B
  | .inUse => 0x0C
  | .doesNotFit => 0x0D
  | .tableFull => 0x0E
  | .listFull => 0x0F
  | .quota => 0x10
  | .stillAsserted => 0x11
  | .noGroup => 0x12
  | .noProposal => 0x13
  | .notEligible => 0x14
  | .alreadyVoted => 0x15

/-- The reason byte of a LINK_ERROR frame: CRC 0, SHORT 1 (R171). -/
def linkReasonCode : LinkReason → Nat
  | .crc => 0
  | .short => 1

/-! ### Fields as bytes (R172) -/

/-- yes or set 1, no or clear 0. -/
def flagByte (b : Bool) : Byte := if b then 1#8 else 0#8

def portByte (p : Port) : Byte := byteOf p.val

/-- A set of lines or of ports, one byte, bit n for member n. -/
def setByte (s : IdSet 4) : Byte := byteOf (setValue s)

/-- A set of lanes, two bytes, most significant first. -/
def laneSetBytes (s : LaneSet) : List Byte := wordOf (setValue s)

/-- phase_error: two bytes of two's complement, most significant first. -/
def phaseBytes (e : Int) : List Byte := wordOf (e % 65536).toNat

/-- An absent field takes no bytes. -/
def optBytes {α : Type} (f : α → List Byte) : Option α → List Byte
  | none => []
  | some a => f a

/-- The sync window of a source, absent for FREE, one byte for FOLLOW. -/
def NewSource.windowBytes : NewSource → List Byte
  | .free => []
  | .follow w => [byteOf w]

/-! ### Records as bytes -/

/-- The fields of a result's status (R175): reason for MISSED, value and wait for OK, none for ABORTED. -/
def ResultStatus.fieldBytes : ResultStatus → List Byte
  | .ok value wait => wordOf value ++ wordOf wait
  | .missed reason => [byteOf reason.code]
  | .aborted => []

/-- A result record (R175). -/
def ResultRec.bytes (r : ResultRec) : List Byte :=
  [byteOf r.tag, byteOf r.slot.val, byteOf r.channel.val] ++ wordOf r.seq ++ wordOf r.offset
    ++ [byteOf r.status.code] ++ r.status.fieldBytes ++ [byteOf r.lostBefore]

/-- The kind fields of an event (R176). -/
def Event.fieldBytes : Event → List Byte
  | .timebaseStarted => []
  | .timebaseStopped p => [portByte p]
  | .syncLocked first => [flagByte first]
  | .syncLost interval => wordOf interval
  | .portLapsed p n => [portByte p, byteOf n]
  | .groupApplied n => [byteOf n]
  | .trip line lanes => byteOf line.val :: laneSetBytes lanes
  | .tripCleared line => [byteOf line.val]
  | .lanesResumed lanes => laneSetBytes lanes
  | .proposalOpened id proposer period source votes voter =>
      [byteOf id, portByte proposer] ++ wordOf period ++ [byteOf source.code] ++ source.windowBytes
        ++ [byteOf votes, flagByte voter]
  | .proposalEnded id outcome =>
      [byteOf id, byteOf outcome.code]
        ++ (match outcome with
            | .committed firstSeq => wordOf firstSeq
            | .rejected => []
            | .expired => []
            | .withdrawn => [])

/-- An event record (R176): kind, seq, lost_before, then the fields of its kind. -/
def EventRec.bytes (r : EventRec) : List Byte :=
  [byteOf r.event.code] ++ wordOf r.seq ++ [byteOf r.lostBefore] ++ r.event.fieldBytes

/-! ### Response frames (R170) -/

/-- A response frame less its CRC: M, tag, status, payload. -/
def Response.frameBody (r : Response) : List Byte :=
  [byteOf (r.payload.length + 4), r.tag, byteOf r.status.code] ++ r.payload

/-- A response frame: M bytes, the last of them the CRC-8 of those before it. -/
def Response.frame (r : Response) : List Byte := r.frameBody ++ [crc8 r.frameBody]

/-- Byte k of a held response as it is shifted out, counting from 0: 0x00 after the last (R166). -/
def Response.outByte (r : Response) (k : Nat) : Byte := r.frame.getD k 0x00#8

end Sys2Proof.Machine
end

