-- ==== Sys2Proof/Machine/Flags.lean ====
section
/-! DEFINITION. What is read off the state: the timebase's and monitor's conditions, trip lines in force, ownership,
bound ports, fit, and the output pins. -/

namespace Sys2Proof.Machine

/-! ### Timebase and sessions -/

/-- FREE, ACQUIRING, LOCKED and COASTING are the running states (R4). -/
def TbState.running : TbState → Bool
  | .stopped => false
  | .free => true
  | .acquiring => true
  | .locked => true
  | .coasting => true

/-- The states in which the sync monitor judges edges (R20). -/
def TbState.monitored : TbState → Bool
  | .stopped => false
  | .free => false
  | .acquiring => true
  | .locked => true
  | .coasting => true

/-- The timebase is running (R4). -/
def running (s : State) : Bool := s.tb.state.running

/-- The session of port p is OPEN (R36). -/
def isOpen (s : State) (p : Port) : Bool := decide (s.sessions[p].state = .opened)

/-- A session at which the next thing the session table does is a lapse: OPEN, with silence_count at the limit (R44). -/
def Session.lapses (r : Session) : Bool :=
  match r.state, r.silenceCount, r.silenceLimit with
  | .opened, some n, some limit => decide (limit ≤ n)
  | _, _, _ => false

/-- Port p lapses at the boundary just made (R44; log 19). -/
def lapseDue (s : State) (p : Port) : Bool := s.sessions[p].lapses

/-! ### Trip lines -/

/-- A detect state in which a line is in force (R52, R132). -/
def Detect.inForce : Detect → Bool
  | .idle => false
  | .qualifyingOn => false
  | .asserted => true
  | .qualifyingOff => true

/-- Line t is in force. -/
def inForce (s : State) (t : Line) : Bool := s.trips[t].detect.inForce

/-- The lines of a mask that are in force. -/
def maskInForce (s : State) (mask : LineSet) : LineSet := setOf fun t => mask[t] && inForce s t

/-- Some line of a mask is in force. -/
def anyInForce (s : State) (mask : LineSet) : Bool := someId fun t => mask[t] && inForce s t

/-- Some line of a set has mode LATCH, by the modes in force now (R140). -/
def latched (s : State) (lines : LineSet) : Bool :=
  someId fun t => lines[t] && decide (s.trips[t].settings.mode = .latch)

/-- A line is monitored while OWNED or ORPHANED (R134). -/
def Ownership.monitored : Ownership → Bool
  | .free => false
  | .owned _ => true
  | .orphaned => true

/-- The owner of a line, absent unless OWNED (R132). -/
def Ownership.owner? : Ownership → Option Port
  | .free => none
  | .owned p => some p
  | .orphaned => none

/-! ### Lanes -/

/-- The owner of a lane, absent in FREE and ORPHANED (R51). -/
def LaneStatus.owner? : LaneStatus → Option Port
  | .free => none
  | .leased p => some p
  | .tripped p _ _ => some p
  | .orphaned => none

/-- trip_cause: empty unless TRIPPED (R51). -/
def LaneStatus.cause : LaneStatus → LineSet
  | .free => IdSet.none 4
  | .leased _ => IdSet.none 4
  | .tripped _ cause _ => cause
  | .orphaned => IdSet.none 4

/-- rearm_pending: clear unless TRIPPED (R51). -/
def LaneStatus.rearm : LaneStatus → Bool
  | .free => false
  | .leased _ => false
  | .tripped _ _ rearm => rearm
  | .orphaned => false

/-- Port p owns lane l, LEASED or TRIPPED (R52). -/
def ownsLane (s : State) (p : Port) (l : Lane) : Bool := decide (s.lanes[l].status.owner? = some p)

/-- Port p owns line t. -/
def ownsLine (s : State) (p : Port) (t : Line) : Bool := decide (s.trips[t].ownership.owner? = some p)

/-- Port p owns slot i, which is then not EMPTY. -/
def ownsSlot (s : State) (p : Port) (i : Slot) : Bool :=
  match s.slots[i] with
  | none => false
  | some r => decide (r.owner = p)

/-- A port is bound while it owns a lane, a trip line or a slot (R50). -/
def bound (s : State) (p : Port) : Bool :=
  (someId fun l => ownsLane s p l) || (someId fun t => ownsLine s p t) || (someId fun i => ownsSlot s p i)

/-- The lanes, not FREE, whose mask names line t (R149). -/
def namedBy (s : State) (t : Line) : LaneSet :=
  setOf fun l => decide (s.lanes[l].status ≠ .free) && s.lanes[l].settings.tripMask[t]

/-! ### Fit (R62, R86, R153) -/

/-- on_at and length fit a period. -/
def LaneSettings.fits (w : LaneSettings) (period : Nat) : Bool :=
  decide (w.onAt + 1 ≤ period) && decide (w.length ≤ period)

/-- A test of the period in force and, while a proposal exists, of the proposed period (R62). -/
def fitsBoth (s : State) (fits : Nat → Bool) : Bool :=
  fits s.tb.period &&
    (match s.agreement.proposal with
     | none => true
     | some pr => fits pr.period)

/-- Every lane that is not FREE, every slot that is not EMPTY and every LANE_SET entry fits a period (R153). -/
def everythingFits (s : State) (period : Nat) : Bool :=
  (everyId fun l => decide (s.lanes[l].status = .free) || s.lanes[l].settings.fits period)
    && (everyId fun i =>
          match s.slots[i] with
          | none => true
          | some r => decide (r.offset + 1 ≤ period))
    && s.commits.all fun e =>
          match e.action with
          | .laneSet _ w => w.fits period
          | .sampleAdd _ => true
          | .sampleRemove _ => true

/-! ### Output pins -/

/-- A driven level as a pin level. -/
def ActiveLevel.level : ActiveLevel → Level
  | .high => .high
  | .low => .low

/-- The inactive level: whichever of HIGH and LOW the active level is not (R51). -/
def ActiveLevel.inactive : ActiveLevel → Level
  | .high => .low
  | .low => .high

/-- The counter lies in a lane's window: (counter − on_at) mod P is less than length (R53). -/
def inWindow (tb : Timebase) (w : LaneSettings) : Bool :=
  decide (((tb.counter : Int) - (w.onAt : Int)) % (tb.period : Int) < (w.length : Int))

/-- The level a lane drives, by its state, its settings and the timebase (R53). -/
def LaneRec.drive (tb : Timebase) (l : LaneRec) : Level :=
  match l.status with
  | .free => .hiz
  | .leased _ =>
      if tb.state.running && inWindow tb l.settings then l.settings.activeLevel.level
      else l.settings.activeLevel.inactive
  | .tripped _ _ _ => l.settings.safeLevel
  | .orphaned => l.settings.safeLevel

/-- The level of pin LANEn (R53). -/
def laneDrive (s : State) (l : Lane) : Level := s.lanes[l].drive s.tb

/-- The level of SYNC_OUT, true for HIGH (R10). -/
def syncOut (s : State) : Bool := running s && decide (s.tb.counter < Config.syncPulse)

/-- The result count has reached the port's result_threshold. -/
def Session.wants (r : Session) (n : Nat) : Bool :=
  match r.resultThreshold with
  | none => false
  | some t => decide (t ≤ n)

/-- The level of ATTNn, true for HIGH (R129). -/
def attn (s : State) (p : Port) : Bool :=
  isOpen s p &&
    (!s.delivery[p].events.isEmpty || s.sessions[p].wants s.delivery[p].results.length
      || decide (0 < s.delivery[p].lostResults) || decide (0 < s.delivery[p].lostEvents))

/-- The level of SDOn: OPEN outside a transaction; in one, between whole bytes, the first bit of the next byte of the
held response (R166). With SELn low and no transaction under way, after a reset released under a low SELn, R166 gives no
level: OPEN there is a DESIGN CHOICE (log 30). -/
def sdo (s : State) (p : Port) : Level :=
  if s.links[p].active then
    if (s.links[p].held.outByte s.links[p].clocked).msb then .high else .low
  else .hiz

end Sys2Proof.Machine
end

