-- ==== Sys2Proof/Machine/Ops.lean ====
section
/-! DEFINITION. The shared operations of the part: placing records, serving the converter queue, firing slots, making
a frame boundary and answering it, ending a session, judging sync edges and trip samples. Each is a function of the
state; a command's meaning is written over them. -/

namespace Sys2Proof.Machine

/-! ### Delivery: placing records (R123 to R126) -/

/-- An event record handed to an OPEN port: it enters with the tally as lost_before, or is counted when the queue is
full (R123, R124, R125). -/
def Delivery.pushEvent (d : Delivery) (e : Event) (seq : Nat) : Delivery :=
  if d.events.length < Config.eventCapacity then
    { d with events := d.events ++ [{ event := e, seq := seq, lostBefore := d.lostEvents }], lostEvents := 0 }
  else { d with lostEvents := min Config.tallyMax (d.lostEvents + 1) }

/-- A result record handed to an OPEN port (R123, R124, R125); the record's own lost_before is not looked at. -/
def Delivery.pushResult (d : Delivery) (r : ResultRec) : Delivery :=
  if d.results.length < Config.resultCapacity then
    { d with results := d.results ++ [{ r with lostBefore := d.lostResults }], lostResults := 0 }
  else { d with lostResults := min Config.tallyMax (d.lostResults + 1) }

/-- One emission: each port that the function gives an event is handed it with the current seq (R122); a port whose
session is not OPEN has its copy discarded (R126). The copies do not affect one another (R123). -/
def emit (f : Port → Option Event) (s : State) : State :=
  { s with
    delivery := tabulate fun p =>
      match f p with
      | none => s.delivery[p]
      | some e => if isOpen s p then s.delivery[p].pushEvent e s.tb.seq else s.delivery[p] }

/-- An event to every OPEN port. -/
def emitAll (e : Event) (s : State) : State := emit (fun _ => some e) s

/-- An event to one port. -/
def emitTo (p : Port) (e : Event) (s : State) : State := emit (fun q => if q = p then some e else none) s

/-- A result record handed to delivery for a port (R123, R126). -/
def placeResult (p : Port) (r : ResultRec) (s : State) : State :=
  if isOpen s p then { s with delivery := update s.delivery p fun d => d.pushResult r } else s

/-! ### The converter (R105 to R110, R114, R116) -/

/-- The ticks from one tick stamp to another (R2, R104). -/
def ageOf (now then_ : Nat) : Nat := (now + Config.stampModulus - then_) % Config.stampModulus

/-- A request is stale when its max_wait is a limit and its age exceeds it (R107, R108). -/
def ConvRequest.stale (now : Nat) (r : ConvRequest) : Bool :=
  decide (r.maxWait < Config.noWaitLimit) && decide (r.maxWait < ageOf now r.triggerTime)

/-- The code of an analog level: 0 at or below the low reference, 4095 at or above the high one, rising between
(R109; the unit of the level: log 9). -/
def codeOf (level : Int) : Nat := (max 0 (min (Config.codeMax : Int) level)).toNat

/-- The result record of a request, with its identity fields (R112). -/
def ConvRequest.record (r : ConvRequest) (status : ResultStatus) : ResultRec :=
  { tag := r.tag, slot := r.slot, channel := r.channel, seq := r.seq, offset := r.offset, status := status,
    lostBefore := 0 }

/-- A record of a request handed to delivery for its owner; an ownerless request has none (R110, R112). -/
def deliverFor (r : ConvRequest) (status : ResultStatus) (s : State) : State :=
  match r.owner with
  | none => s
  | some p => placeResult p (r.record status) s

/-- Records of one status for a run of requests, in order. -/
def deliverAll (rs : List ConvRequest) (status : ResultStatus) (s : State) : State :=
  rs.foldl (fun s r => deliverFor r status s) s

/-- The conversion of a request started in this tick: its wait is its age, its code the level of its channel
(R107, R109). -/
def startOf (s : State) (r : ConvRequest) : Conversion :=
  { request := r, wait := ageOf s.tickStamp r.triggerTime, capture := codeOf s.pins.ain[r.channel], elapsed := 0 }

/-- The converter after taking the head (R107): the stale requests at the head go, the first that is not stale is
started, and with none the converter is IDLE with an empty queue. -/
def Converter.afterHead (s : State) (queue : List ConvRequest) : Converter :=
  match queue.dropWhile (ConvRequest.stale s.tickStamp) with
  | [] => { inFlight := none, queue := [] }
  | r :: rest => { inFlight := some (startOf s r), queue := rest }

/-- Taking the head (R107), for a converter that is IDLE: each stale request at the head yields its MISSED STALE record
in queue order, and the first that is not stale is started. -/
def takeHead (s : State) : State :=
  deliverAll (s.conv.queue.takeWhile (ConvRequest.stale s.tickStamp)) (.missed .stale)
    { s with conv := Converter.afterHead s s.conv.queue }

/-- A trigger handed to the converter (R105): appended to a queue of fewer than 8, the head then taken if the
converter is IDLE; or turned into a MISSED QUEUE_FULL record. -/
def takeTrigger (r : ConvRequest) (s : State) : State :=
  if s.conv.queue.length < Config.queueCapacity then
    let s1 := { s with conv := { s.conv with queue := s.conv.queue ++ [r] } }
    match s.conv.inFlight with
    | none => takeHead s1
    | some _ => s1
  else deliverFor r (.missed .queueFull) s

/-- The completion of the conversion in flight (R110): an OK record for the owner if present, then IDLE, then the head. -/
def finishConversion (c : Conversion) (s : State) : State :=
  takeHead (deliverFor c.request (.ok c.capture c.wait) { s with conv := { s.conv with inFlight := none } })

/-- The conversion completes when its 40 ticks have passed (R109, R110); before that nothing happens. -/
def takeCompletion (s : State) : State :=
  match s.conv.inFlight with
  | none => s
  | some c => if Config.conversionTicks ≤ c.elapsed then finishConversion c s else s

/-- The converter at a stop (R114): every queued request becomes an ABORTED record, head first; the one in flight is
not touched. -/
def abortQueue (s : State) : State :=
  deliverAll s.conv.queue .aborted { s with conv := { s.conv with queue := [] } }

/-- A conversion whose request loses its owner if that is the port (R116). -/
def Conversion.disown (p : Port) (c : Conversion) : Conversion :=
  if c.request.owner = some p then { c with request := { c.request with owner := none } } else c

/-- The converter at a session end (R116): the port's queued requests go without records, and its request in flight
becomes ownerless. -/
def Converter.purge (p : Port) (c : Converter) : Converter :=
  { inFlight := c.inFlight.map (Conversion.disown p)
    queue := c.queue.filter fun r => decide (r.owner ≠ some p) }

/-! ### The sample schedule: firing (R91 to R97) -/

/-- A firing state: LIVE or RETIRING (R85). -/
def SlotState.fires : SlotState → Bool
  | .staged => false
  | .live => true
  | .retiring => true

/-- A frame qualifies for a slot, by the frame's seq (R91). -/
def SlotMode.qualifies (seq : Nat) : SlotMode → Bool
  | .once => true
  | .every => true
  | .divided divisor phase => decide (seq % divisor = phase)

/-- A slot is due in a frame: in a firing state, in a frame that qualifies, and not fired under its seq (R91). -/
def SlotRec.dueIn (seq : Nat) (r : SlotRec) : Bool :=
  r.state.fires && r.mode.qualifies seq && decide (r.lastFired ≠ some seq)

/-- Slot i fires in this tick (R91). -/
def slotDue (s : State) (i : Slot) : Bool :=
  match s.slots[i] with
  | none => false
  | some r => running s && decide (s.tb.counter = r.offset) && r.dueIn s.tb.seq

/-- An entry is the SAMPLE_REMOVE of slot i. -/
def Entry.removes (i : Slot) (e : Entry) : Bool := decide (e.action = .sampleRemove i)

/-- An entry is the SAMPLE_ADD of slot i. -/
def Entry.adds (i : Slot) (e : Entry) : Bool := decide (e.action = .sampleAdd i)

/-- The trigger of a slot firing now (R91). -/
def triggerOf (s : State) (i : Slot) (r : SlotRec) : ConvRequest :=
  { owner := some r.owner, slot := i, tag := r.tag, channel := r.channel, seq := s.tb.seq, offset := r.offset,
    maxWait := r.maxWait, triggerTime := s.tickStamp }

/-- A ONCE slot becomes EMPTY at its firing, its SAMPLE_REMOVE entry first deleted (R93). -/
def emptyOnce (i : Slot) (r : SlotRec) (s : State) : State :=
  match r.mode with
  | .once => { s with slots := s.slots.set i none, commits := s.commits.filter fun e => !e.removes i }
  | .every => s
  | .divided _ _ => s

/-- The firing of slot i (R91): last_fired takes the seq, the trigger goes to the converter, and a ONCE slot becomes
EMPTY. -/
def fireSlot (i : Slot) (s : State) : State :=
  match s.slots[i] with
  | none => s
  | some r =>
    emptyOnce i r
      (takeTrigger (triggerOf s i r)
        { s with slots := s.slots.set i (some { r with lastFired := some s.tb.seq }) })

/-- The firing judgement of one happening: the slots a test picks out and that are due fire in ascending order
(R91, R94). -/
def fireAmong (test : State → Slot → Bool) (s : State) : State :=
  (List.finRange 32).foldl (fun s i => if test s i && slotDue s i then fireSlot i s else s) s

/-- The schedule's response to a boundary passes over a RETIRING slot whose SAMPLE_REMOVE is unheld (R92). -/
def notPassedOver (s : State) (i : Slot) : Bool :=
  !(s.commits.any fun e => e.removes i && !e.held)

/-- The record of a slot whose frame was cut before its firing (R96). -/
def shortFrameRecord (seq : Nat) (i : Slot) (r : SlotRec) : ResultRec :=
  { tag := r.tag, slot := i, channel := r.channel, seq := seq, offset := r.offset, status := .missed .shortFrame,
    lostBefore := 0 }

/-- The short-frame judgement of one slot, for a frame cut at counter value c (R96): its offset is above c, or is c
and the edge was taken before the firing (R97). -/
def shortFrameOf (c : Nat) (s : State) (i : Slot) : Option (Port × ResultRec) :=
  match s.slots[i] with
  | none => none
  | some r =>
    if r.dueIn s.tb.seq && decide (c ≤ r.offset) then some (r.owner, shortFrameRecord s.tb.seq i r) else none

/-- The records of the short-frame judgement of the frame that ends, each with its owner, in ascending order of slot
(R96). -/
def shortFrames (c : Nat) (s : State) : List (Port × ResultRec) := (List.finRange 32).filterMap (shortFrameOf c s)

/-- Result records handed to delivery in order, each for its port. -/
def placeAll (rs : List (Port × ResultRec)) (s : State) : State := rs.foldl (fun s m => placeResult m.1 m.2 s) s

/-- The first step of the schedule's response to a boundary (R92): the SHORT_FRAME records of the frame that ended are
handed over. -/
def handCut (s : State) : State :=
  placeAll s.due.cut { s with due := { s.due with schedule := false, cut := [] } }

/-- The schedule's judgement in one tick (R91, R92, R94): the response to a boundary just made, if one is due, and the
firing of the slots at the counter. Between a boundary and the commit list's response to it, a slot that R92 passes over
stays passed over. -/
def fireDue (s : State) : State := fireAmong (fun s i => !s.due.commit || notPassedOver s i) (handCut s)

/-- The schedule's response to a boundary already made, if it is due (R92). -/
def takeSchedule (s : State) : State := if s.due.schedule then fireDue s else s

/-! ### Making a frame boundary (R6, R7) -/

/-- The kinds of a frame boundary; an EDGE boundary hands on the counter value at which the frame was cut (R7). -/
inductive BoundaryKind where
  | start
  | wrap
  | edge (cut : Nat)
  deriving DecidableEq, Repr

/-- The seq of the frame that begins (R7). -/
def BoundaryKind.nextSeq (k : BoundaryKind) (seq : Nat) : Nat :=
  match k with
  | .start => 0
  | .wrap => (seq + 1) % Config.seqModulus
  | .edge _ => (seq + 1) % Config.seqModulus

/-- The grace at a boundary (R24): a WRAP boundary in LOCKED opens it, an EDGE or START boundary closes it. -/
def BoundaryKind.grace (k : BoundaryKind) (s : State) : Bool :=
  match k with
  | .start => false
  | .wrap => decide (s.tb.state = .locked) || s.sync.grace
  | .edge _ => false

/-- The silence count of an OPEN session rises by 1 at a boundary (R44). -/
def Session.countFrame (r : Session) : Session :=
  match r.state with
  | .closed => r
  | .opened => { r with silenceCount := r.silenceCount.map (· + 1) }
  | .lapsed => r

/-- An OPEN proposal's frames_left falls by 1 at a boundary (R161). -/
def Proposal.countFrame (pr : Proposal) : Proposal :=
  match pr.state with
  | .opened => { pr with framesLeft := pr.framesLeft - 1 }
  | .accepted => pr

/-- The short-frame judgement that an EDGE boundary makes of the frame it ends, on the slots as they stand at the edge
(R92, R96). -/
def BoundaryKind.cutRecords (k : BoundaryKind) (s : State) : List (Port × ResultRec) :=
  match k with
  | .start => []
  | .wrap => []
  | .edge c => shortFrames c s

/-- A frame boundary (R6, R7): the frame that it begins, with counter 0, its seq, the grace, the silence counts and the
proposal's count; and the responses now due from the schedule, the commit list, the agreement unit and the trip monitor
(R5, R7, R24, R44, R92, R161; log 3, log 6, log 24). -/
def makeBoundary (k : BoundaryKind) (s : State) : State :=
  { s with
    tb := { s.tb with counter := 0, seq := k.nextSeq s.tb.seq }
    sync := { s.sync with grace := k.grace s }
    sessions := s.sessions.map Session.countFrame
    agreement := { s.agreement with proposal := s.agreement.proposal.map Proposal.countFrame }
    due :=
      { s.due with
        wrap := false, schedule := true, cut := s.due.cut ++ k.cutRecords s, commit := true
        agreement := s.agreement.proposal.isSome, resume := true } }

/-- The passage of the counter from P−1 to 0, in the tick that has come with the counter at P−1 (R5, R6). -/
def takeWrap (s : State) : State :=
  if s.due.wrap && running s then makeBoundary .wrap s else s

/-! ### The commit list's response to a boundary (R72, R73, R78) -/

/-- TRIP events for one lane tripped by an application: to the owner, one per line, ascending (log 13); each line's
informed set gains the owner (R64, R137). -/
def tripByEntry (p : Port) (l : Lane) (lines : LineSet) (s : State) : State :=
  (members lines).foldl
    (fun s t =>
      emitTo p (.trip t (single l))
        { s with trips := update s.trips t fun r => { r with informed := insertId r.informed p } })
    s

/-- A LANE_SET entry applied to a LEASED lane (R64). -/
def applyToLeased (p : Port) (l : Lane) (w : LaneSettings) (s : State) : State :=
  if anyInForce s w.tripMask then
    tripByEntry p l (maskInForce s w.tripMask)
      { s with lanes := s.lanes.set l { status := .tripped p (maskInForce s w.tripMask) false, settings := w } }
  else { s with lanes := s.lanes.set l { status := .leased p, settings := w } }

/-- A LANE_SET entry applied to a TRIPPED lane (R65). -/
def applyToTripped (p : Port) (cause : LineSet) (rearm : Bool) (l : Lane) (w : LaneSettings) (s : State) : State :=
  let added := minus (maskInForce s w.tripMask) cause
  tripByEntry p l added
    { s with
      lanes := s.lanes.set l
        { status := .tripped p (union (inter cause w.tripMask) (maskInForce s w.tripMask))
            (rearm && !nonempty added)
          settings := w } }

/-- A LANE_SET entry applied (R64, R65). An entry stands only while its lane has an owner (R70); a lane without one is
left as it is (log 25). -/
def applyLaneSet (l : Lane) (w : LaneSettings) (s : State) : State :=
  match s.lanes[l].status with
  | .free => s
  | .leased p => applyToLeased p l w s
  | .tripped p cause rearm => applyToTripped p cause rearm l w s
  | .orphaned => s

/-- An entry handed to the block that owns its target (R73): LANE_SET to the lane bank, SAMPLE_ADD makes its slot LIVE
(R88), SAMPLE_REMOVE makes its slot EMPTY (R90). -/
def applyEntry (s : State) (e : Entry) : State :=
  match e.action with
  | .laneSet l w => applyLaneSet l w s
  | .sampleAdd i => { s with slots := update s.slots i fun r => r.map fun r => { r with state := .live } }
  | .sampleRemove i => { s with slots := s.slots.set i none }

/-- The entries of a port that `group_end` released, among those applied (R78). -/
def releasedOf (p : Port) (es : List Entry) : Nat :=
  (es.filter fun e => decide (e.port = p) && e.released).length

/-- GROUP_APPLIED to each port whose group_report is set, which then clears (R78). -/
def reportGroups (applied : List Entry) (s : State) : State :=
  { emit (fun p => if s.groupReport[p] then some (.groupApplied (releasedOf p applied)) else none) s with
    groupReport := Vector.replicate 4 false }

/-- The commit list's response to a frame boundary (R72): the unheld entries are applied from head to tail and
removed, the slots they make LIVE at offset 0 fire (R88, R94), and the groups are reported (R78). -/
def applyCommits (s : State) : State :=
  let applied := s.commits.filter fun e => !e.held
  let s1 :=
    { s with
      commits := s.commits.filter fun e => e.held
      due := { s.due with commit := false } }
  let s2 := applied.foldl applyEntry s1
  let s3 := fireAmong (fun _ i => applied.any fun e => e.adds i) s2
  reportGroups applied s3

/-- The commit list's response, if it is due. -/
def takeCommits (s : State) : State := if s.due.commit then applyCommits s else s

/-! ### The trip monitor's response to a boundary (R145) -/

/-- A lane that holds rearm_pending becomes LEASED, its cause and flag cleared (R145). -/
def LaneRec.resume (l : LaneRec) : LaneRec :=
  match l.status with
  | .free => l
  | .leased _ => l
  | .tripped p _ rearm => if rearm then { l with status := .leased p } else l
  | .orphaned => l

/-- The lanes of port p that hold rearm_pending. -/
def resumedLanes (s : State) (p : Port) : LaneSet :=
  setOf fun l => s.lanes[l].status.rearm && ownsLane s p l

/-- The trip monitor's response to a frame boundary (R145): the lanes with rearm_pending resume, and each owner of one
or more gets LANES_RESUMED. -/
def resumeLanes (s : State) : State :=
  { emit (fun p => if nonempty (resumedLanes s p) then some (.lanesResumed (resumedLanes s p)) else none) s with
    lanes := s.lanes.map LaneRec.resume
    due := { s.due with resume := false } }

/-- The trip monitor's response, if it is due. -/
def takeResume (s : State) : State := if s.due.resume then resumeLanes s else s

/-! ### The agreement unit's response to a boundary (R160, R161, R162) -/

/-- A proposal ends: the record becomes absent and PROPOSAL_ENDED goes to every OPEN port (R162). -/
def endProposal (id : Nat) (outcome : ProposalOutcome) (s : State) : State :=
  emitAll (.proposalEnded id outcome)
    { s with
      agreement := { s.agreement with proposal := none }
      due := { s.due with agreement := false } }

/-- The source a proposal names. -/
def NewSource.source : NewSource → Source
  | .free => .free
  | .follow _ => .follow

/-- The timebase after a commit (R9, R33): the new period and source, W′ for FOLLOW, and the state that the change of
source calls for. -/
def Timebase.commit (tb : Timebase) (period : Nat) (source : NewSource) : Timebase :=
  match tb.source, source with
  | .free, .free => { tb with period := period, state := .free }
  | .free, .follow w => { tb with period := period, source := .follow, window := w, state := .acquiring }
  | .follow, .free => { tb with period := period, source := .free, state := .free }
  | .follow, .follow w => { tb with period := period, window := w }

/-- The sync monitor after a commit (R33): cleared by a change of source, slip 0 from FOLLOW to FOLLOW, untouched from
FREE to FREE. -/
def SyncMonitor.commit (m : SyncMonitor) (before : Source) (after : NewSource) : SyncMonitor :=
  match before, after with
  | .free, .free => m
  | .free, .follow _ => .cleared
  | .follow, .free => .cleared
  | .follow, .follow _ => { m with slip := 0 }

/-- The commit of an ACCEPTED proposal (R160). -/
def commitProposal (pr : Proposal) (s : State) : State :=
  endProposal pr.id (.committed s.tb.seq)
    { s with
      tb := s.tb.commit pr.period pr.source
      sync := s.sync.commit s.tb.source pr.source }

/-- The agreement unit's response to the boundary is over, with nothing changed. -/
def closeAgreement (s : State) : State := { s with due := { s.due with agreement := false } }

/-- The commit, if the agreement unit's response is due and the proposal is ACCEPTED (R160). -/
def takeProposalCommit (s : State) : State :=
  match s.due.agreement, s.agreement.proposal with
  | true, some pr =>
    match pr.state with
    | .accepted => commitProposal pr s
    | .opened => s
  | _, _ => s

/-- The end of the agreement unit's response for an OPEN proposal, whose frames_left the boundary has counted down:
EXPIRED if it has reached 0 (R161; log 22). -/
def takeProposalExpiry (s : State) : State :=
  match s.due.agreement, s.agreement.proposal with
  | true, some pr =>
    match pr.state with
    | .opened => if pr.framesLeft = 0 then endProposal pr.id .expired s else closeAgreement s
    | .accepted => s
  | _, _ => s

/-- The agreement unit's response, if it is due. -/
def takeAgreement (s : State) : State := takeProposalExpiry (takeProposalCommit s)

/-! ### Session ends (R41, R45) -/

/-- The two ways a session ends. -/
inductive EndKind where
  | close
  | lapse
  deriving DecidableEq, Repr

/-- The session record after its end (R41, R45). -/
def Session.ended (k : EndKind) (r : Session) : Session :=
  match k with
  | .close => .reset
  | .lapse => { r with state := .lapsed, groupOpen := false }

/-- A lane of the ending port (R66, R67): FREE with the defaults at a close, ORPHANED with its settings at a lapse. -/
def LaneRec.ended (k : EndKind) (l : LaneRec) : LaneRec :=
  match k with
  | .close => .reset
  | .lapse => { l with status := .orphaned }

/-- Some lane LEASED or TRIPPED under a port other than p names line t. -/
def namedByOther (s : State) (p : Port) (t : Line) : Bool :=
  someId fun l =>
    (match s.lanes[l].status.owner? with
     | none => false
     | some q => decide (q ≠ p))
      && s.lanes[l].settings.tripMask[t]

/-- At a close, a line of the port goes FREE unless another port's lane names it; at a lapse it is ORPHANED (R148). -/
def goesFree (k : EndKind) (s : State) (p : Port) (t : Line) : Bool :=
  match k with
  | .close => ownsLine s p t && !namedByOther s p t
  | .lapse => false

/-- A line after the session end of port p (R148): p leaves every informed set; p's own lines become FREE or
ORPHANED. -/
def lineEnded (k : EndKind) (s : State) (p : Port) (t : Line) : TripLine :=
  if goesFree k s p t then .reset
  else
    { s.trips[t] with
      ownership := if ownsLine s p t then .orphaned else s.trips[t].ownership
      informed := eraseId s.trips[t].informed p }

/-- The lines that were in force when a close turned them FREE: TRIP_CLEARED goes to each port remaining in informed,
line by line (R148). -/
def clearFreed (k : EndKind) (before : State) (p : Port) (s : State) : State :=
  (List.finRange 4).foldl
    (fun s t =>
      if goesFree k before p t && inForce before t then
        emit (fun q => if before.trips[t].informed[q] && decide (q ≠ p) then some (.tripCleared t) else none) s
      else s)
    s

/-- A proposal after the end of a voter's session (R159). -/
def Proposal.without (p : Port) (pr : Proposal) : Proposal :=
  let electorate := eraseId pr.electorate p
  let accepted := eraseId pr.accepted p
  { pr with
    electorate := electorate
    accepted := accepted
    state := if accepted = electorate then .accepted else pr.state }

/-- The agreement unit at a session end (R159). -/
def agreementEnded (p : Port) (s : State) : State :=
  match s.agreement.proposal with
  | none => s
  | some pr =>
    if pr.proposer = p then endProposal pr.id .withdrawn s
    else if pr.electorate[p] then { s with agreement := { s.agreement with proposal := some (pr.without p) } }
    else s

/-- The purge of every block but the agreement unit at a session end, and the session's own record (R41, R45, R66, R67,
R80, R100, R116, R130, R148). No record made for the port before outlives the session (R96, R126). -/
def purge (k : EndKind) (p : Port) (s : State) : State :=
  { s with
    sessions := update s.sessions p (Session.ended k)
    lanes := tabulate fun l => if ownsLane s p l then s.lanes[l].ended k else s.lanes[l]
    trips := tabulate fun t => lineEnded k s p t
    due :=
      { s.due with
        trip := setOf fun t => s.due.trip[t] && !goesFree k s p t
        cut := s.due.cut.filter fun m => decide (m.1 ≠ p) }
    slots := tabulate fun i => if ownsSlot s p i then none else s.slots[i]
    commits := s.commits.filter fun e => decide (e.port ≠ p)
    groupReport := s.groupReport.set p false
    conv := s.conv.purge p
    delivery := s.delivery.set p .reset }

/-- The end of port p's session, one happening (R41, R45): every block releases what the port held, TRIP_CLEARED for
the lines a close turns FREE, then the agreement unit (the order of their events: log 12). -/
def endSession (k : EndKind) (p : Port) (s : State) : State :=
  agreementEnded p (clearFreed k s p (purge k p s))

/-- The lanes port p owns (R46). -/
def lanesOwned (s : State) (p : Port) : Nat := ((List.finRange 16).filter fun l => ownsLane s p l).length

/-- The lapse of port p (R45, R46): the session end, then PORT_LAPSED to every other OPEN port. -/
def lapsePort (p : Port) (s : State) : State :=
  emitAll (.portLapsed p (lanesOwned s p)) (endSession .lapse p s)

/-! ### SYNC_LOCKED and the lapses of its boundary (R30, R34) -/

/-- SYNC_LOCKED of an accepted edge, if it waits to be sent (R30, R31). -/
def takeLocked (s : State) : State :=
  match s.due.locked with
  | none => s
  | some first => emitAll (.syncLocked first) { s with due := { s.due with locked := none } }

/-- SYNC_LOCKED waits only while a lapse is due that may come before it (R34; log 29). -/
def releaseLocked (s : State) : State := if someId (lapseDue s) then s else takeLocked s

/-- The lapse of port p, if it is due; after the last one a SYNC_LOCKED that waits is sent (R34). -/
def takeLapse (p : Port) (s : State) : State := if lapseDue s p then releaseLocked (lapsePort p s) else s

/-! ### The responses to a boundary together -/

/-- The responses of the commit list, the agreement unit, the session table (ports ascending) and the trip monitor to a
boundary already made, if they are due, in this order (the fixed order is a DESIGN CHOICE, log 5). -/
def takeResponses (s : State) : State :=
  takeResume (takeLapse 3 (takeLapse 2 (takeLapse 1 (takeLapse 0 (takeAgreement (takeCommits s))))))

/-- All that a boundary already made still calls for: SYNC_LOCKED of the edge that made it, the schedule's response, and
the other responses (log 5). -/
def finishBoundary (s : State) : State := takeResponses (takeSchedule (takeLocked s))

/-! ### The sync monitor (R21 to R30) -/

/-- The measurement an accepted edge makes (R22), with its phase_error (R23), slip 0 and the grace closed (R24). -/
def SyncMonitor.measure (m : SyncMonitor) (phase : Int) : SyncMonitor :=
  { m with
    interval := m.intervalCounter.getD m.interval
    intervalCounter := some 0
    phaseError := phase
    slip := 0
    grace := false }

/-- phase_error of an edge accepted in ACQUIRING or COASTING at counter value c (R23). -/
def acquirePhase (c period : Nat) : Int :=
  if 2 * c < period then (c : Int) else -((period : Int) - (c : Int))

/-- An edge accepted in ACQUIRING or COASTING at c, one happening (R30): it ends the frame if c > 0, measures, locks, and
sends SYNC_LOCKED, with first = yes if no lock was declared since the last clear. R34 has a lapse at the boundary the edge
makes come before the event or after it; while such a lapse is due the event waits for it (log 29). -/
def acceptLock (s : State) : State :=
  let c := s.tb.counter
  let s1 := if 0 < c then makeBoundary (.edge c) s else s
  let s2 :=
    { s1 with
      tb := { s1.tb with state := .locked }
      sync := { s1.sync.measure (acquirePhase c s.tb.period) with lockedOnce := true }
      due := { s1.due with locked := some (!s.sync.lockedOnce) } }
  if 0 < c then releaseLocked s2 else takeLocked s2

/-- An early edge in LOCKED at c (R26). -/
def earlyEdge (s : State) : State :=
  let c := s.tb.counter
  let s1 := makeBoundary (.edge c) s
  { s1 with sync := s1.sync.measure (-((s.tb.period : Int) - (c : Int))) }

/-- An on-time edge in LOCKED (R25). -/
def onTimeEdge (s : State) : State := { s with sync := s.sync.measure 0 }

/-- A late edge in LOCKED at c: the realignment (R27). -/
def lateEdge (s : State) : State :=
  { s with tb := { s.tb with counter := 0 }, sync := s.sync.measure (s.tb.counter : Int) }

/-- An edge in LOCKED, by c and the grace (R25, R28). -/
def judgeLocked (s : State) : State :=
  if s.tb.counter < s.tb.window then
    if s.sync.grace then (if s.tb.counter = 0 then onTimeEdge s else lateEdge s) else s
  else if s.tb.period ≤ s.tb.counter + s.tb.window then earlyEdge s
  else s

/-- An edge by the timebase's state (R20, R25, R30): ignored while the monitor is inactive. -/
def judgeEdge (s : State) : State :=
  match s.tb.state with
  | .stopped => s
  | .free => s
  | .acquiring => acceptLock s
  | .locked => judgeLocked s
  | .coasting => acceptLock s

/-- The rising edge of this tick (R21): an edge in the tick of the wrap is judged after the wrap. -/
def edgeTaken (s : State) : State :=
  let s1 := takeWrap s
  judgeEdge { s1 with due := { s1.due with edge := false } }

/-- The rising edge of this tick, if it is still to be taken (R21). -/
def takeEdge (s : State) : State := if s.due.edge then edgeTaken s else s

/-- The grace running out with no accepted edge: slip rises, and at 4 the lock is lost (R29). An edge of the same tick
has c = W and is stray whatever the order (R24, R34), so it is not left to be judged in COASTING (log 28). -/
def graceRunsOut (s : State) : State :=
  let slip := s.sync.slip + 1
  let s1 :=
    { s with
      sync := { s.sync with grace := false, slip := min Config.slipLimit slip }
      due := { s.due with edge := false } }
  if Config.slipLimit ≤ slip then
    emitAll (.syncLost s.sync.interval) { s1 with tb := { s1.tb with state := .coasting } }
  else s1

/-- The counter has taken the value W in LOCKED with the grace open (R29). -/
def graceExpires (s : State) : Bool :=
  decide (s.tb.state = .locked) && s.sync.grace && decide (s.tb.counter = s.tb.window)

/-- The grace's expiry, if it is due. -/
def takeGrace (s : State) : State := if graceExpires s then graceRunsOut s else s

/-! ### The trip monitor: samples, assertion, deassertion (R134 to R140) -/

/-- The sample of a line is active under its polarity (R134). -/
def Polarity.active (pol : Polarity) (high : Bool) : Bool :=
  match pol with
  | .activeHigh => high
  | .activeLow => !high

/-- What a sample brings about on a line (R135). -/
inductive SampleMove where
  | move (detect : Detect) (count : Nat)
  | asserts
  | deasserts
  deriving DecidableEq, Repr

/-- The table of R135: the move of a line by its detect state, its qualify and count, and the sample. -/
def TripLine.judge (r : TripLine) (high : Bool) : SampleMove :=
  match r.detect, r.settings.polarity.active high with
  | .idle, false => .move .idle 0
  | .idle, true => if r.settings.qualify = 0 then .asserts else .move .qualifyingOn 0
  | .qualifyingOn, false => .move .idle 0
  | .qualifyingOn, true =>
      if r.settings.qualify ≤ r.qualifyCount + 1 then .asserts else .move .qualifyingOn (r.qualifyCount + 1)
  | .asserted, true => .move .asserted 0
  | .asserted, false => if r.settings.qualify = 0 then .deasserts else .move .qualifyingOff 0
  | .qualifyingOff, true => .move .asserted 0
  | .qualifyingOff, false =>
      if r.settings.qualify ≤ r.qualifyCount + 1 then .deasserts else .move .qualifyingOff (r.qualifyCount + 1)

/-- A lane at the assertion of line t (R136): a LEASED lane that names it is tripped, a TRIPPED one gains it and loses
its rearm_pending. -/
def LaneRec.onAssert (t : Line) (l : LaneRec) : LaneRec :=
  if l.settings.tripMask[t] then
    match l.status with
    | .free => l
    | .leased p => { l with status := .tripped p (single t) false }
    | .tripped p cause _ => { l with status := .tripped p (insertId cause t) false }
    | .orphaned => l
  else l

/-- The affected lanes of port p at the assertion of line t (R136). -/
def affectedLanes (s : State) (t : Line) (p : Port) : LaneSet :=
  setOf fun l => s.lanes[l].settings.tripMask[t] && ownsLane s p l

/-- The ports handed a TRIP event at the assertion of line t: the owners of affected lanes, and the line's owner
(R137). -/
def tripInformed (s : State) (t : Line) : PortSet :=
  setOf fun p => nonempty (affectedLanes s t p) || ownsLine s p t

/-- The assertion of line t (R136, R137). -/
def assertLine (t : Line) (s : State) : State :=
  { emit (fun p => if (tripInformed s t)[p] then some (.trip t (affectedLanes s t p)) else none) s with
    lanes := s.lanes.map (LaneRec.onAssert t)
    trips := update s.trips t fun r =>
      { r with detect := .asserted, qualifyCount := 0, informed := tripInformed s t } }

/-- A lane at the deassertion of the FOLLOW line t, in the state with t IDLE (R140). -/
def LaneRec.onFollow (s : State) (t : Line) (l : LaneRec) : LaneRec :=
  match l.status with
  | .free => l
  | .leased _ => l
  | .tripped p cause rearm =>
      if cause[t] && !anyInForce s l.settings.tripMask && !latched s cause then { l with status := .tripped p cause true }
      else { l with status := .tripped p cause rearm }
  | .orphaned => l

/-- FOLLOW recovery at the deassertion of line t, granted in FOLLOW mode only (R138, R140). -/
def recoverLanes (t : Line) (s : State) : State :=
  match s.trips[t].settings.mode with
  | .latch => s
  | .follow => { s with lanes := s.lanes.map (LaneRec.onFollow s t) }

/-- TRIP_CLEARED to the ports of a line's informed set (R139). -/
def clearTrip (t : Line) (s : State) : State :=
  emit (fun p => if s.trips[t].informed[p] then some (.tripCleared t) else none) s

/-- The deassertion of line t (R138). -/
def deassertLine (t : Line) (s : State) : State :=
  let s1 := clearTrip t s
  recoverLanes t
    { s1 with
      trips := update s1.trips t fun r =>
        { r with detect := .idle, qualifyCount := 0, informed := IdSet.none 4 } }

/-- The move of line t by the sample of this tick (R135). -/
def moveLine (t : Line) (m : SampleMove) (s : State) : State :=
  match m with
  | .move d n => { s with trips := update s.trips t fun r => { r with detect := d, qualifyCount := n } }
  | .asserts => assertLine t s
  | .deasserts => deassertLine t s

/-- What the sample of this tick brings about on line t. -/
def sampleMove (s : State) (t : Line) : SampleMove := s.trips[t].judge s.pins.trip[t]

/-- The sample of this tick of line t is judged. -/
def sampleTaken (t : Line) (s : State) : State := { s with due := { s.due with trip := s.due.trip.set t false } }

/-- The judgement of line t's sample of this tick, if it is still to be made (R134, R135). -/
def takeSample (t : Line) (s : State) : State :=
  if s.due.trip[t] then moveLine t (sampleMove s t) (sampleTaken t s) else s

/-! ### Time passing -/

/-- Every happening of the current tick that is still to be taken, in one fixed order (DESIGN CHOICE, log 3): the wrap
with the schedule's response, the grace, the completion, the edge with its SYNC_LOCKED and the schedule's response to its
boundary, the other responses, and the trip samples. -/
def settle (s : State) : State :=
  let s1 := takeCompletion (takeGrace (fireDue (takeWrap s)))
  let s2 := takeResponses (fireDue (takeLocked (takeEdge s1)))
  takeSample 3 (takeSample 2 (takeSample 1 (takeSample 0 s2)))

/-- The interval counter advances while the monitor is active and it is present, up to 65535 (R22). -/
def SyncMonitor.tick (active : Bool) (m : SyncMonitor) : SyncMonitor :=
  if active then { m with intervalCounter := m.intervalCounter.map fun n => min Config.intervalMax (n + 1) } else m

/-- The counter advances while the timebase is running, up to P−1 (R5); the passage to 0 is the wrap's. -/
def Timebase.tick (tb : Timebase) : Timebase :=
  if tb.state.running && decide (tb.counter + 1 < tb.period) then { tb with counter := tb.counter + 1 } else tb

/-- The tick finds the counter of a running timebase at P−1: the wrap is due (R5). -/
def Timebase.wraps (tb : Timebase) : Bool := tb.state.running && !decide (tb.counter + 1 < tb.period)

/-- One tick of the tick clock in a state that owes nothing (R1, R2, R5, R21, R22, R109, R134): the stamp, the interval
counter, the conversion time and the counter advance, and the pins are sampled. -/
def advance (levels : TickPins) (s : State) : State :=
  { s with
    tickStamp := (s.tickStamp + 1) % Config.stampModulus
    tb := s.tb.tick
    sync := s.sync.tick s.tb.state.monitored
    conv := { s.conv with inFlight := s.conv.inFlight.map fun c => { c with elapsed := c.elapsed + 1 } }
    pins := { syncIn := levels.syncIn, trip := levels.trip, ain := levels.ain }
    due :=
      { s.due with
        wrap := s.tb.wraps
        edge := levels.syncIn && !s.pins.syncIn
        trip := setOf fun t => s.trips[t].ownership.monitored } }

/-! ### Requests (R37, R38, R169) -/

/-- The answer of a command: its status and its payload (R170). -/
structure Answer where
  status  : Status
  payload : List Byte
  deriving DecidableEq, Repr

/-- A command of a block: the state after it and its answer. -/
abbrev Command := State → State × Answer

/-- A refusal without payload: no block changes (R169). -/
def refuse (st : Status) : Command := fun s => (s, { status := st, payload := [] })

/-- OK with a payload, and the state after the command. -/
def okWith (payload : List Byte) (s : State) : State × Answer := (s, { status := .ok, payload := payload })

/-- OK with no payload. -/
def okay (s : State) : State × Answer := okWith [] s

/-- The session check, the first check of every command it applies to (R37). -/
def inSession (p : Port) (cmd : Command) : Command := fun s =>
  match s.sessions[p].state with
  | .closed => refuse .noSession s
  | .opened => cmd s
  | .lapsed => refuse .lapsed s

/-- A valid request sets the silence count of an OPEN session to 0, before its command acts (R38). -/
def Session.hear (r : Session) : Session :=
  match r.state with
  | .closed => r
  | .opened => { r with silenceCount := some 0 }
  | .lapsed => r

/-- A valid request from port p is heard (R38). -/
def hear (p : Port) (s : State) : State := { s with sessions := update s.sessions p Session.hear }

/-- The transaction of a link is over: SELn high, the receive buffer emptied (R166, R167). -/
def Link.ended (l : Link) : Link :=
  { l with selLow := false, active := false, rx := [], clocked := 0, lastOut := none }

/-- Port p's transaction ends and its held response is replaced (R168). -/
def hold (p : Port) (r : Response) (s : State) : State :=
  { s with links := update s.links p fun l => { l.ended with held := r } }

/-- A request taken at port p with a tag (R13, R38, R167 to R169): a SYNC_LOCKED that waits is sent and a lapse of p that
is due comes first (R30, R49), the silence count is reset, the command acts, and its answer becomes the held response. The
command is given the silence count as it stood just before the reset (R43). The other responses to a boundary may come
before or after it (log 5). -/
def takeRequest (p : Port) (tag : Nat) (cmd : Option Nat → Command) (s : State) : State :=
  let s1 := takeLapse p (takeLocked s)
  let r := cmd s1.sessions[p].silenceCount (hear p s1)
  hold p { tag := byteOf tag, status := r.2.status, payload := r.2.payload } r.1

/-- A `tb_start` or `tb_stop` taken at port p with a tag: all that a boundary already made still calls for comes first
(R17; log 5). -/
def takeTimebaseRequest (p : Port) (tag : Nat) (cmd : Option Nat → Command) (s : State) : State :=
  takeRequest p tag cmd (finishBoundary s)

/-- A happening takes place only while the part is out of reset (R1, R166). -/
def whileRunning (f : State → State) (s : State) : State := if s.inReset then s else f s

/-- A happening of the part other than a lapse: a SYNC_LOCKED that waits is sent first, since only a lapse may part it from
its edge (R30, R34). -/
def happens (f : State → State) (s : State) : State := whileRunning (fun s => f (takeLocked s)) s

/-! ### The capacity check and the append (R71) -/

/-- The entries of port p in the commit list. -/
def entriesOf (s : State) (p : Port) : Nat := (s.commits.filter fun e => decide (e.port = p)).length

/-- The capacity check of an appending command (R71): LIST_FULL, then QUOTA, else none. -/
def capacityRefusal (s : State) (p : Port) : Option Status :=
  if Config.listCapacity ≤ s.commits.length then some .listFull
  else if Config.portShare ≤ entriesOf s p then some .quota
  else none

/-- An entry appended at the tail, held if the port's group is open (R71). -/
def append (p : Port) (a : EntryAction) (s : State) : State :=
  { s with
    commits := s.commits ++ [{ port := p, action := a, held := s.sessions[p].groupOpen, released := false }] }

end Sys2Proof.Machine
end

