-- ==== Sys2Proof/Machine/Converter.lean ====
section
/-! DEFINITION. The converter's happening: CONVERSION_COMPLETE (spec/07). -/

namespace Sys2Proof.Machine

/-- CONVERSION_COMPLETE (R110): 40 ticks after the start; before that, or with no conversion in flight, nothing
happens. -/
def execConversionComplete (s : State) : Host.Outcome State Fault Refusal :=
  .next (happens takeCompletion s)

end Sys2Proof.Machine
end

