-- ==== Sys2Proof/Machine/Agreement.lean ====
section
/-! DEFINITION. Period and source agreement: PROPOSE, VOTE, WITHDRAW, PROPOSAL_COMMIT, PROPOSAL_EXPIRY (spec/10). -/

namespace Sys2Proof.Machine

/-- PROPOSAL_COMMIT (R160): the agreement unit's response to the frame boundary just made, with the proposal ACCEPTED;
otherwise nothing happens. -/
def execProposalCommit (s : State) : Host.Outcome State Fault Refusal := .next (happens takeProposalCommit s)

/-- PROPOSAL_EXPIRY (R161): the agreement unit's response to the frame boundary just made, with the proposal OPEN. The
boundary has counted frames_left down; at 0 the proposal ends EXPIRED. -/
def execProposalExpiry (s : State) : Host.Outcome State Fault Refusal := .next (happens takeProposalExpiry s)

/-- The source and window that the coded parameters of `propose` name for a period (R152): for FOLLOW the window is 1 to
255 and at most period/8; for FREE it is not judged and not kept. -/
def newSourceOf? (period source window : Nat) : Option NewSource :=
  match sourceOf? source with
  | none => none
  | some .free => some .free
  | some .follow => if 1 ≤ window ∧ window ≤ 255 ∧ window ≤ period / 8 then some (.follow window) else none

/-- The electorate of a proposal opened by port p now: the bound ports and p (R154). -/
def electorateOf (s : State) (p : Port) : PortSet := setOf fun q => bound s q || decide (q = p)

/-- The id after one: 255 is followed by 1 (R150). -/
def idAfter (n : Nat) : Nat := if n = 255 then 1 else n + 1

/-- The proposal that `propose` opens (R154). -/
def newProposal (s : State) (p : Port) (period : Nat) (source : NewSource) (votes : Nat) : Proposal :=
  { id := s.agreement.nextId
    proposer := p
    period := period
    source := source
    voteWindow := votes
    framesLeft := votes
    electorate := electorateOf s p
    accepted := single p
    state := if electorateOf s p = single p then .accepted else .opened }

/-- The opening of a proposal, one happening (R154); *voter* is yes in the copies to the electorate (R162). -/
def openProposal (pr : Proposal) (s : State) : State :=
  emit (fun q => some (.proposalOpened pr.id pr.proposer pr.period pr.source pr.voteWindow pr.electorate[q]))
    { s with agreement := { proposal := some pr, nextId := idAfter s.agreement.nextId } }

/-- The OK answer of `propose` (R154): id, electorate, state. -/
def proposeAnswer (pr : Proposal) : List Byte := [byteOf pr.id, setByte pr.electorate, byteOf pr.state.code]

/-- `propose` with parameters in range (R152, R154). -/
def openChecked (p : Port) (period : Nat) (source : NewSource) (votes : Nat) : Command := fun s =>
  if !running s then refuse .stopped s
  else if s.agreement.proposal.isSome then refuse .busy s
  else if !everythingFits s period then refuse .doesNotFit s
  else
    let pr := newProposal s p period source votes
    okWith (proposeAnswer pr) (openProposal pr s)

/-- `propose` (R152): range, STOPPED, BUSY, DOES_NOT_FIT. -/
def cmdPropose (p : Port) (period source window votes : Nat) : Command :=
  inSession p fun s =>
    match newSourceOf? period source window with
    | none => refuse .range s
    | some src =>
      if 64 ≤ period ∧ period ≤ 65535 ∧ 1 ≤ votes ∧ votes ≤ 255 then openChecked p period src votes s
      else refuse .range s

/-- PROPOSE. -/
def execPropose (p : Port) (tag period source window votes : Nat) (s : State) : Host.Outcome State Fault Refusal :=
  .next (whileRunning (takeRequest p tag fun _ => cmdPropose p period source window votes) s)

/-- A proposal with port p's acceptance (R157). -/
def Proposal.accept (p : Port) (pr : Proposal) : Proposal :=
  let accepted := insertId pr.accepted p
  { pr with accepted := accepted, state := if accepted = pr.electorate then .accepted else pr.state }

/-- A vote that passes every check (R157). -/
def castVote (p : Port) (pr : Proposal) (c : Choice) (s : State) : State × Answer :=
  match c with
  | .accept =>
      okWith [byteOf (pr.accept p).state.code]
        { s with agreement := { s.agreement with proposal := some (pr.accept p) } }
  | .reject => okay (endProposal pr.id .rejected s)

/-- `vote` with a choice in range (R156): NO_PROPOSAL, NOT_ELIGIBLE, ALREADY_VOTED. -/
def voteChecked (p : Port) (id : Nat) (c : Choice) : Command := fun s =>
  match s.agreement.proposal with
  | none => refuse .noProposal s
  | some pr =>
    if pr.id ≠ id then refuse .noProposal s
    else if !pr.electorate[p] then refuse .notEligible s
    else if pr.accepted[p] then refuse .alreadyVoted s
    else castVote p pr c s

/-- `vote` (R156). -/
def cmdVote (p : Port) (id choice : Nat) : Command :=
  inSession p fun s =>
    match choiceOf? choice with
    | none => refuse .range s
    | some c => voteChecked p id c s

/-- VOTE. -/
def execVote (p : Port) (tag id choice : Nat) (s : State) : Host.Outcome State Fault Refusal :=
  .next (whileRunning (takeRequest p tag fun _ => cmdVote p id choice) s)

/-- `withdraw` (R158): NO_PROPOSAL, then NOT_OWNER. -/
def cmdWithdraw (p : Port) (id : Nat) : Command :=
  inSession p fun s =>
    match s.agreement.proposal with
    | none => refuse .noProposal s
    | some pr =>
      if pr.id ≠ id then refuse .noProposal s
      else if pr.proposer ≠ p then refuse .notOwner s
      else okay (endProposal pr.id .withdrawn s)

/-- WITHDRAW. -/
def execWithdraw (p : Port) (tag id : Nat) (s : State) : Host.Outcome State Fault Refusal :=
  .next (whileRunning (takeRequest p tag fun _ => cmdWithdraw p id) s)

end Sys2Proof.Machine
end

