-- ==== Sys2Proof/Machine/Commit.lean ====
section
/-! DEFINITION. The commit list and edit groups: COMMIT_APPLY, GROUP_BEGIN, GROUP_END, GROUP_CANCEL (spec/05). -/

namespace Sys2Proof.Machine

/-- COMMIT_APPLY (R72, R73, R78): the commit list's response to the frame boundary just made; without one nothing
happens. -/
def execCommitApply (s : State) : Host.Outcome State Fault Refusal := .next (happens takeCommits s)

/-- The group_open of port p set or cleared. -/
def setGroup (p : Port) (open_ : Bool) (s : State) : State :=
  { s with sessions := update s.sessions p fun r => { r with groupOpen := open_ } }

/-- `group_begin` (R75). -/
def cmdGroupBegin (p : Port) : Command :=
  inSession p fun s =>
    if s.sessions[p].groupOpen then refuse .busy s else okay (setGroup p true s)

/-- GROUP_BEGIN. -/
def execGroupBegin (p : Port) (tag : Nat) (s : State) : Host.Outcome State Fault Refusal :=
  .next (whileRunning (takeRequest p tag fun _ => cmdGroupBegin p) s)

/-- An entry is a held one of port p. -/
def Entry.heldBy (p : Port) (e : Entry) : Bool := decide (e.port = p) && e.held

/-- The held entries of port p. -/
def heldEntries (s : State) (p : Port) : List Entry := s.commits.filter (Entry.heldBy p)

/-- An entry after the end of port p's group (R77). -/
def Entry.release (p : Port) (e : Entry) : Entry :=
  if e.heldBy p then { e with held := false, released := true } else e

/-- The end of port p's group (R77). -/
def releaseGroup (p : Port) (s : State) : State :=
  setGroup p false
    { s with commits := s.commits.map (Entry.release p), groupReport := s.groupReport.set p true }

/-- `group_end` (R77). -/
def cmdGroupEnd (p : Port) : Command :=
  inSession p fun s =>
    if s.sessions[p].groupOpen then okWith [byteOf (heldEntries s p).length] (releaseGroup p s)
    else refuse .noGroup s

/-- GROUP_END. -/
def execGroupEnd (p : Port) (tag : Nat) (s : State) : Host.Outcome State Fault Refusal :=
  .next (whileRunning (takeRequest p tag fun _ => cmdGroupEnd p) s)

/-- A slot after the held entries of port p are cancelled (R79): STAGED by one of them, EMPTY; retired by one, LIVE. -/
def cancelledSlot (s : State) (p : Port) (i : Slot) : Option SlotRec :=
  if (heldEntries s p).any fun e => e.adds i then none
  else if (heldEntries s p).any fun e => e.removes i then s.slots[i].map fun r => { r with state := .live }
  else s.slots[i]

/-- The cancel of port p's group (R79). -/
def cancelGroup (p : Port) (s : State) : State :=
  setGroup p false
    { s with
      commits := s.commits.filter fun e => !e.heldBy p
      slots := tabulate fun i => cancelledSlot s p i }

/-- `group_cancel` (R79). -/
def cmdGroupCancel (p : Port) : Command :=
  inSession p fun s =>
    if s.sessions[p].groupOpen then okWith [byteOf (heldEntries s p).length] (cancelGroup p s)
    else refuse .noGroup s

/-- GROUP_CANCEL. -/
def execGroupCancel (p : Port) (tag : Nat) (s : State) : Host.Outcome State Fault Refusal :=
  .next (whileRunning (takeRequest p tag fun _ => cmdGroupCancel p) s)

end Sys2Proof.Machine
end

