-- ==== Sys2Proof/Machine/Delivery.lean ====
section
/-! DEFINITION. Reading the queues: READ_RESULTS and READ_EVENTS (spec/08). -/

namespace Sys2Proof.Machine

/-- A max of 1 to 4 (R127, R128). -/
def maxInRange (n : Nat) : Bool := decide (1 ≤ n) && decide (n ≤ 4)

/-- The payload of `read_results` (R127): count, left, lost, then the records, oldest first. -/
def resultsPayload (d : Delivery) (n : Nat) : List Byte :=
  [byteOf (d.results.take n).length, byteOf (d.results.drop n).length, byteOf d.lostResults]
    ++ (d.results.take n).flatMap ResultRec.bytes

/-- `read_results` (R127). -/
def cmdReadResults (p : Port) (max : Nat) : Command :=
  inSession p fun s =>
    if maxInRange max then
      okWith (resultsPayload s.delivery[p] max)
        { s with delivery := update s.delivery p fun d => { d with results := d.results.drop max } }
    else refuse .range s

/-- READ_RESULTS. -/
def execReadResults (p : Port) (tag max : Nat) (s : State) : Host.Outcome State Fault Refusal :=
  .next (whileRunning (takeRequest p tag fun _ => cmdReadResults p max) s)

/-- The payload of `read_events` (R128). -/
def eventsPayload (d : Delivery) (n : Nat) : List Byte :=
  [byteOf (d.events.take n).length, byteOf (d.events.drop n).length, byteOf d.lostEvents]
    ++ (d.events.take n).flatMap EventRec.bytes

/-- `read_events` (R128). -/
def cmdReadEvents (p : Port) (max : Nat) : Command :=
  inSession p fun s =>
    if maxInRange max then
      okWith (eventsPayload s.delivery[p] max)
        { s with delivery := update s.delivery p fun d => { d with events := d.events.drop max } }
    else refuse .range s

/-- READ_EVENTS. -/
def execReadEvents (p : Port) (tag max : Nat) (s : State) : Host.Outcome State Fault Refusal :=
  .next (whileRunning (takeRequest p tag fun _ => cmdReadEvents p max) s)

end Sys2Proof.Machine
end

