-- ==== Sys2Proof/Machine/Lanes.lean ====
section
/-! DEFINITION. Output lanes: LANE_LEASE, LANE_RELEASE, LANE_SET (spec/04). -/

namespace Sys2Proof.Machine

/-- The OK answer of `lane_lease` (R55): the lane's state and whether it was adopted. -/
def leaseAnswer (l : LaneStatus) (adopted : Bool) : List Byte := [byteOf l.code, flagByte adopted]

/-- The status of an adopted lane (R57): TRIPPED by the lines of its mask in force, or LEASED when there is none. -/
def adoptedStatus (s : State) (p : Port) (mask : LineSet) : LaneStatus :=
  if anyInForce s mask then .tripped p (maskInForce s mask) false else .leased p

/-- `lane_lease` of a lane in range, by the lane's state (R55 to R57). -/
def leaseLane (p : Port) (l : Lane) : Command := fun s =>
  match s.lanes[l].status with
  | .free =>
      okWith (leaseAnswer (.leased p) false)
        { s with lanes := s.lanes.set l { status := .leased p, settings := .fresh } }
  | .orphaned =>
      let status := adoptedStatus s p s.lanes[l].settings.tripMask
      okWith (leaseAnswer status true)
        { s with
          lanes := s.lanes.set l { status := status, settings := { s.lanes[l].settings with length := 0 } } }
  | .leased q =>
      if q = p then okWith (leaseAnswer (.leased q) false) s
      else (s, { status := .held, payload := [portByte q] })
  | .tripped q cause rearm =>
      if q = p then okWith (leaseAnswer (.tripped q cause rearm) false) s
      else (s, { status := .held, payload := [portByte q] })

/-- `lane_lease` (R55). -/
def cmdLaneLease (p : Port) (lane : Nat) : Command :=
  inSession p fun s =>
    match laneOf? lane with
    | none => refuse .range s
    | some l => leaseLane p l s

/-- LANE_LEASE. -/
def execLaneLease (p : Port) (tag lane : Nat) (s : State) : Host.Outcome State Fault Refusal :=
  .next (whileRunning (takeRequest p tag fun _ => cmdLaneLease p lane) s)

/-- An entry's target is lane l. -/
def Entry.targetsLane (l : Lane) (e : Entry) : Bool :=
  match e.action with
  | .laneSet m _ => decide (m = l)
  | .sampleAdd _ => false
  | .sampleRemove _ => false

/-- The release of lane l by its owner p, one happening (R59). -/
def releaseLane (p : Port) (l : Lane) (s : State) : State :=
  { s with
    commits := s.commits.filter fun e => !(decide (e.port = p) && e.targetsLane l)
    lanes := s.lanes.set l .reset }

/-- `lane_release` (R59). -/
def cmdLaneRelease (p : Port) (lane : Nat) : Command :=
  inSession p fun s =>
    match laneOf? lane with
    | none => refuse .range s
    | some l => if ownsLane s p l then okay (releaseLane p l s) else refuse .notOwner s

/-- LANE_RELEASE. -/
def execLaneRelease (p : Port) (tag lane : Nat) (s : State) : Host.Outcome State Fault Refusal :=
  .next (whileRunning (takeRequest p tag fun _ => cmdLaneRelease p lane) s)

/-- The settings that the coded parameters of `lane_set` name, or none when one is out of range (R61). -/
def settingsOf? (onAt length activeLevel safeLevel tripMask : Nat) : Option LaneSettings :=
  match activeLevelOf? activeLevel, levelOf? safeLevel, lineSetOf? tripMask with
  | some a, some b, some m =>
      some { onAt := onAt, length := length, activeLevel := a, safeLevel := b, tripMask := m }
  | _, _, _ => none

/-- `lane_set` with parameters in range (R61 to R63): ownership, fit, capacity, then the append. -/
def stageSettings (p : Port) (l : Lane) (w : LaneSettings) : Command := fun s =>
  if !ownsLane s p l then refuse .notOwner s
  else if !fitsBoth s w.fits then refuse .doesNotFit s
  else
    match capacityRefusal s p with
    | some st => refuse st s
    | none => okay (append p (.laneSet l w) s)

/-- `lane_set` (R61). -/
def cmdLaneSet (p : Port) (lane onAt length activeLevel safeLevel tripMask : Nat) : Command :=
  inSession p fun s =>
    match laneOf? lane, settingsOf? onAt length activeLevel safeLevel tripMask with
    | some l, some w => stageSettings p l w s
    | _, _ => refuse .range s

/-- LANE_SET. -/
def execLaneSet (p : Port) (tag lane onAt length activeLevel safeLevel tripMask : Nat) (s : State) :
    Host.Outcome State Fault Refusal :=
  .next (whileRunning
    (takeRequest p tag fun _ => cmdLaneSet p lane onAt length activeLevel safeLevel tripMask) s)

end Sys2Proof.Machine
end

