-- ==== Sys2Proof/Machine/Schedule.lean ====
section
/-! DEFINITION. The sample schedule: SLOT_FIRE, SAMPLE_ADD, SAMPLE_REMOVE (spec/06). -/

namespace Sys2Proof.Machine

/-- SLOT_FIRE (R91 to R94): the schedule's judgement in the current tick, which at a boundary is its response to it (R92;
log 24); with no response and no slot due nothing happens. -/
def execSlotFire (s : State) : Host.Outcome State Fault Refusal := .next (happens fireDue s)

/-- The lowest-numbered EMPTY slot (R87). -/
def emptySlot? (s : State) : Option Slot := (List.finRange 32).find? fun i => s.slots[i].isNone

/-- The record of a slot just staged (R87). -/
def stagedRec (p : Port) (offset : Nat) (channel : Channel) (mode : SlotMode) (maxWait tag : Nat) : SlotRec :=
  { state := .staged, owner := p, tag := tag, offset := offset, channel := channel, mode := mode, maxWait := maxWait,
    lastFired := none }

/-- `sample_add` with parameters in range (R86, R87): room in the table, fit, capacity, then the staging and the
append. -/
def stageSlot (p : Port) (r : SlotRec) : Command := fun s =>
  match emptySlot? s with
  | none => refuse .tableFull s
  | some i =>
    if !fitsBoth s (fun period => decide (r.offset + 1 ≤ period)) then refuse .doesNotFit s
    else
      match capacityRefusal s p with
      | some st => refuse st s
      | none =>
        okWith [byteOf i.val]
          (append p (.sampleAdd i) { s with slots := s.slots.set i (some r) })

/-- `sample_add` (R86). -/
def cmdSampleAdd (p : Port) (offset channel mode divisor phase maxWait tag : Nat) : Command :=
  inSession p fun s =>
    match channelOf? channel, slotModeOf? mode divisor phase with
    | some c, some m => stageSlot p (stagedRec p offset c m maxWait tag) s
    | _, _ => refuse .range s

/-- SAMPLE_ADD. -/
def execSampleAdd (p : Port) (tag offset channel mode divisor phase maxWait sampleTag : Nat) (s : State) :
    Host.Outcome State Fault Refusal :=
  .next (whileRunning
    (takeRequest p tag fun _ => cmdSampleAdd p offset channel mode divisor phase maxWait sampleTag) s)

/-- `sample_remove` of a slot its requester owns, by the slot's state (R89). -/
def removeSlot (p : Port) (i : Slot) (r : SlotRec) : Command := fun s =>
  match r.state with
  | .staged =>
      okWith [byteOf 0]
        { s with slots := s.slots.set i none, commits := s.commits.filter fun e => !e.adds i }
  | .live =>
      match capacityRefusal s p with
      | some st => refuse st s
      | none =>
        okWith [byteOf SlotState.retiring.code]
          (append p (.sampleRemove i) { s with slots := s.slots.set i (some { r with state := .retiring }) })
  | .retiring => okWith [byteOf SlotState.retiring.code] s

/-- `sample_remove` (R89): a slot out of range or EMPTY is refused RANGE, another port's NOT_OWNER. -/
def cmdSampleRemove (p : Port) (slot : Nat) : Command :=
  inSession p fun s =>
    match slotOf? slot with
    | none => refuse .range s
    | some i =>
      match s.slots[i] with
      | none => refuse .range s
      | some r => if r.owner = p then removeSlot p i r s else refuse .notOwner s

/-- SAMPLE_REMOVE. -/
def execSampleRemove (p : Port) (tag slot : Nat) (s : State) : Host.Outcome State Fault Refusal :=
  .next (whileRunning (takeRequest p tag fun _ => cmdSampleRemove p slot) s)

end Sys2Proof.Machine
end

