-- ==== Sys2Proof/Machine/Sessions.lean ====
section
/-! DEFINITION. Sessions: SESSION_OPEN, NOP, STATUS, SESSION_CLOSE, LAPSE (spec/03), with the payloads of `status`
(R18, R35, R43, R68, R83, R102, R119, R149, R165, R172). -/

namespace Sys2Proof.Machine

/-- An open session record (R39). -/
def Session.open_ (limit threshold : Nat) : Session :=
  { state := .opened, silenceLimit := some limit, silenceCount := some 0, resultThreshold := some threshold,
    groupOpen := false }

/-- `session_open` (R39): its range checks, then BUSY if OPEN; taken from CLOSED and LAPSED. -/
def cmdSessionOpen (p : Port) (limit threshold : Nat) : Command := fun s =>
  if 1 ≤ limit ∧ limit ≤ 65535 ∧ 1 ≤ threshold ∧ threshold ≤ 16 then
    if isOpen s p then refuse .busy s
    else okay { s with sessions := s.sessions.set p (.open_ limit threshold) }
  else refuse .range s

/-- SESSION_OPEN. -/
def execSessionOpen (p : Port) (tag limit threshold : Nat) (s : State) : Host.Outcome State Fault Refusal :=
  .next (whileRunning (takeRequest p tag fun _ => cmdSessionOpen p limit threshold) s)

/-- `nop` (R40). -/
def cmdNop : Command := okay

/-- NOP. -/
def execNop (p : Port) (tag : Nat) (s : State) : Host.Outcome State Fault Refusal :=
  .next (whileRunning (takeRequest p tag fun _ => cmdNop) s)

/-- `session_close` (R41). -/
def cmdSessionClose (p : Port) : Command := inSession p fun s => okay (endSession .close p s)

/-- SESSION_CLOSE. -/
def execSessionClose (p : Port) (tag : Nat) (s : State) : Host.Outcome State Fault Refusal :=
  .next (whileRunning (takeRequest p tag fun _ => cmdSessionClose p) s)

/-- LAPSE of a port (R45, R46): the session table's response to the frame boundary at which its silence count has
reached its limit; otherwise nothing happens. -/
def execLapse (p : Port) (s : State) : Host.Outcome State Fault Refusal := .next (whileRunning (takeLapse p) s)

/-! ### The payloads of `status` -/

/-- The proposal summary (R165): an id of 0 when no proposal exists (R172). -/
def summaryBytes : Option Proposal → List Byte
  | none => [byteOf 0]
  | some pr =>
      [byteOf pr.id, portByte pr.proposer, byteOf pr.state.code] ++ wordOf pr.period ++ [byteOf pr.source.code]
        ++ pr.source.windowBytes ++ [byteOf pr.framesLeft, setByte pr.electorate, setByte pr.accepted]

/-- `status` PART, its fields in the order R172 gives (R18, R119, R83, R165, R35). -/
def partPayload (s : State) : List Byte :=
  [byteOf s.tb.state.code, byteOf s.tb.source.code] ++ wordOf s.tb.period ++ [byteOf s.tb.window]
    ++ wordOf s.tb.seq ++ wordOf s.tb.counter
    ++ [flagByte s.conv.inFlight.isSome, byteOf s.conv.queue.length, byteOf s.commits.length]
    ++ summaryBytes s.agreement.proposal
    ++ wordOf s.sync.interval ++ phaseBytes s.sync.phaseError ++ [byteOf s.sync.slip]

/-- silence_before (R43): the count before this request reset it in OPEN, the count held in LAPSED. The count before is
handed in, and a count that was not reset is the same. -/
def sessionPayload (p : Port) (before : Option Nat) (s : State) : List Byte :=
  [portByte p, byteOf s.sessions[p].state.code]
    ++ optBytes wordOf s.sessions[p].silenceLimit
    ++ optBytes wordOf before
    ++ optBytes (fun n => [byteOf n]) s.sessions[p].resultThreshold
    ++ [flagByte s.sessions[p].groupOpen, flagByte (bound s p),
        byteOf s.delivery[p].results.length, byteOf s.delivery[p].events.length,
        byteOf s.delivery[p].lostResults, byteOf s.delivery[p].lostEvents]

/-- The entries targeting lane l (R68). -/
def laneEntries (s : State) (l : Lane) : Nat :=
  (s.commits.filter fun e =>
    match e.action with
    | .laneSet m _ => decide (m = l)
    | .sampleAdd _ => false
    | .sampleRemove _ => false).length

/-- One lane of `status` LANES (R68). -/
def lanePayload (s : State) (l : Lane) : List Byte :=
  [byteOf s.lanes[l].status.code]
    ++ optBytes (fun p => [portByte p]) s.lanes[l].status.owner?
    ++ wordOf s.lanes[l].settings.onAt ++ wordOf s.lanes[l].settings.length
    ++ [byteOf s.lanes[l].settings.activeLevel.code, byteOf s.lanes[l].settings.safeLevel.code,
        setByte s.lanes[l].settings.tripMask, setByte s.lanes[l].status.cause, flagByte s.lanes[l].status.rearm,
        byteOf (laneDrive s l).code, byteOf (laneEntries s l)]

/-- One line of `status` TRIPS (R149). -/
def linePayload (s : State) (t : Line) : List Byte :=
  [byteOf s.trips[t].ownership.code]
    ++ optBytes (fun p => [portByte p]) s.trips[t].ownership.owner?
    ++ [byteOf s.trips[t].settings.polarity.code, byteOf s.trips[t].settings.qualify,
        byteOf s.trips[t].settings.mode.code, byteOf s.trips[t].detect.code]
    ++ laneSetBytes (namedBy s t)

/-- One slot of `status` SLOTS (R102). -/
def slotPayload (s : State) (i : Slot) : List Byte :=
  match s.slots[i] with
  | none => [byteOf 0]
  | some r => [byteOf r.state.code, portByte r.owner] ++ wordOf r.offset ++ [byteOf r.mode.code]

/-- The payload of a selector (R42), entries in ascending order (R172). -/
def statusPayload (p : Port) (before : Option Nat) (s : State) : Selector → List Byte
  | .part => partPayload s
  | .session => sessionPayload p before s
  | .lanes => (List.finRange 16).flatMap (lanePayload s)
  | .trips => (List.finRange 4).flatMap (linePayload s)
  | .slots => (List.finRange 32).flatMap (slotPayload s)

/-- `status` (R42). -/
def cmdStatus (p : Port) (selector : Nat) (before : Option Nat) : Command := fun s =>
  match selectorOf? selector with
  | none => refuse .range s
  | some sel => okWith (statusPayload p before s sel) s

/-- STATUS. -/
def execStatus (p : Port) (tag selector : Nat) (s : State) : Host.Outcome State Fault Refusal :=
  .next (whileRunning (takeRequest p tag fun before => cmdStatus p selector before) s)

end Sys2Proof.Machine
end

