-- ==== Sys2Proof/Machine/Timebase.lean ====
section
/-! DEFINITION. The frame timebase: TICK, WRAP, TB_START and TB_STOP (spec/01). -/

namespace Sys2Proof.Machine

/-- TICK (R1, R2, R5, R22): whatever the tick before still owes is taken first (log 3), then time advances. -/
def execTick (levels : TickPins) (s : State) : Host.Outcome State Fault Refusal :=
  .next (happens (fun s => advance levels (settle s)) s)

/-- WRAP (R5, R6, R7): the frame boundary; the blocks answer it in their own happenings (log 6). -/
def execWrap (s : State) : Host.Outcome State Fault Refusal := .next (happens takeWrap s)

/-- The running state a start enters (R11). -/
def Source.startState : Source → TbState
  | .free => .free
  | .follow => .acquiring

/-- The sync monitor at a start: cleared under FOLLOW (R11, R32). -/
def SyncMonitor.start (m : SyncMonitor) : Source → SyncMonitor
  | .free => m
  | .follow => .cleared

/-- The start of a STOPPED timebase, one happening taken whole (R11): the START boundary, then TIMEBASE_STARTED; the
responses to the boundary are happenings of their own and come after it (log 14). -/
def startTimebase (s : State) : State :=
  emitAll .timebaseStarted
    (makeBoundary .start
      { s with
        tb := { s.tb with state := s.tb.source.startState, counter := 0, seq := 0 }
        sync := s.sync.start s.tb.source })

/-- `tb_start` (R11). -/
def cmdTbStart (p : Port) : Command :=
  inSession p fun s => if running s then refuse .busy s else okay (startTimebase s)

/-- TB_START. -/
def execTbStart (p : Port) (tag : Nat) (s : State) : Host.Outcome State Fault Refusal :=
  .next (whileRunning (takeTimebaseRequest p tag fun _ => cmdTbStart p) s)

/-- A slot's last_fired made absent (R99). -/
def SlotRec.unfired (r : SlotRec) : SlotRec := { r with lastFired := none }

/-- The stop of a running timebase by port p (R15, R32, R99, R114). -/
def stopTimebase (p : Port) (s : State) : State :=
  emitAll (.timebaseStopped p)
    (abortQueue
      { s with
        tb := { s.tb with state := .stopped }
        sync := { s.sync with grace := false }
        slots := s.slots.map fun r => r.map SlotRec.unfired
        due := { s.due with wrap := false } })

/-- A port other than p is bound (R14). -/
def otherBound (s : State) (p : Port) : Bool := someId fun q => decide (q ≠ p) && bound s q

/-- `tb_stop` (R14, R15): STOPPED, then IN_USE, then BUSY. -/
def cmdTbStop (p : Port) : Command :=
  inSession p fun s =>
    if !running s then refuse .stopped s
    else if otherBound s p then refuse .inUse s
    else if s.agreement.proposal.isSome then refuse .busy s
    else okay (stopTimebase p s)

/-- TB_STOP. -/
def execTbStop (p : Port) (tag : Nat) (s : State) : Host.Outcome State Fault Refusal :=
  .next (whileRunning (takeTimebaseRequest p tag fun _ => cmdTbStop p) s)

end Sys2Proof.Machine
end

