-- ==== Sys2Proof/Machine/Trips.lean ====
section
/-! DEFINITION. Trip lines: TRIP_PIN_SAMPLE, TRIP_ASSERTION, TRIP_DEASSERTION, TRIP_CLAIM, TRIP_RELEASE, TRIP_SET,
TRIP_REARM, LANES_RESUMED (spec/09). -/

namespace Sys2Proof.Machine

/-- TRIP_PIN_SAMPLE of a line (R134, R135): this tick's sample, if the line is monitored and it is not yet judged. An
assertion or deassertion the sample calls for is part of it (R136, R138). -/
def execTripPinSample (t : Line) (s : State) : Host.Outcome State Fault Refusal :=
  .next (happens (takeSample t) s)

/-- A line's assertion, if this tick's sample of it calls for one (R135, R136). -/
def takeAssertion (t : Line) (s : State) : State :=
  if s.due.trip[t] && decide (sampleMove s t = .asserts) then assertLine t (sampleTaken t s) else s

/-- TRIP_ASSERTION of a line (R136, R137). -/
def execTripAssertion (t : Line) (s : State) : Host.Outcome State Fault Refusal :=
  .next (happens (takeAssertion t) s)

/-- A line's deassertion, if this tick's sample of it calls for one (R135, R138). -/
def takeDeassertion (t : Line) (s : State) : State :=
  if s.due.trip[t] && decide (sampleMove s t = .deasserts) then deassertLine t (sampleTaken t s) else s

/-- TRIP_DEASSERTION of a line (R138 to R140). -/
def execTripDeassertion (t : Line) (s : State) : Host.Outcome State Fault Refusal :=
  .next (happens (takeDeassertion t) s)

/-- LANES_RESUMED (R145): the trip monitor's response to the frame boundary just made; without one nothing happens. -/
def execLanesResumed (s : State) : Host.Outcome State Fault Refusal := .next (happens takeResume s)

/-- The OK answer of `trip_claim` (R141). -/
def claimAnswer (d : Detect) (adopted : Bool) : List Byte := [byteOf d.code, flagByte adopted]

/-- `trip_claim` of a line in range, by its ownership (R141). A line claimed from FREE is judged from the next tick
(R134): this tick brings no sample of it. -/
def claimLine (p : Port) (t : Line) : Command := fun s =>
  match s.trips[t].ownership with
  | .free =>
      okWith (claimAnswer .idle false)
        { s with trips := s.trips.set t { TripLine.reset with ownership := .owned p } }
  | .orphaned =>
      okWith (claimAnswer s.trips[t].detect true)
        { s with trips := update s.trips t fun r => { r with ownership := .owned p } }
  | .owned q =>
      if q = p then okWith (claimAnswer s.trips[t].detect false) s
      else (s, { status := .held, payload := [portByte q] })

/-- `trip_claim` (R141). -/
def cmdTripClaim (p : Port) (line : Nat) : Command :=
  inSession p fun s =>
    match lineOf? line with
    | none => refuse .range s
    | some t => claimLine p t s

/-- TRIP_CLAIM. -/
def execTripClaim (p : Port) (tag line : Nat) (s : State) : Host.Outcome State Fault Refusal :=
  .next (whileRunning (takeRequest p tag fun _ => cmdTripClaim p line) s)

/-- A lane that port p does not own names line t; FREE lanes have empty masks (R142). -/
def namedByForeign (s : State) (p : Port) (t : Line) : Bool :=
  someId fun l => !ownsLane s p l && s.lanes[l].settings.tripMask[t]

/-- A lane without line t in its mask and its cause (R142, step 1). -/
def LaneRec.without (t : Line) (l : LaneRec) : LaneRec :=
  { settings := { l.settings with tripMask := eraseId l.settings.tripMask t }
    status :=
      match l.status with
      | .free => .free
      | .leased p => .leased p
      | .tripped p cause rearm => .tripped p (eraseId cause t) rearm
      | .orphaned => .orphaned }

/-- The release of line t gives lane l rearm_pending (R142, step 2): TRIPPED, its cause held the line, it does not hold
the flag already (log 23), no line of its remaining mask is in force and no line of its remaining cause is LATCH. -/
def rearmedByRelease (s : State) (p : Port) (t : Line) (l : Lane) : Bool :=
  ownsLane s p l && s.lanes[l].status.cause[t] && !s.lanes[l].status.rearm
    && !anyInForce s (eraseId s.lanes[l].settings.tripMask t)
    && !latched s (eraseId s.lanes[l].status.cause t)

/-- A TRIPPED lane given rearm_pending. -/
def LaneRec.rearmed (l : LaneRec) : LaneRec :=
  match l.status with
  | .free => l
  | .leased _ => l
  | .tripped p cause _ => { l with status := .tripped p cause true }
  | .orphaned => l

/-- A lane after the release of line t by port p (R142, steps 1 and 2). -/
def laneAfterRelease (s : State) (p : Port) (t : Line) (l : Lane) : LaneRec :=
  if ownsLane s p l then
    if rearmedByRelease s p t l then (s.lanes[l].without t).rearmed else s.lanes[l].without t
  else s.lanes[l]

/-- The release of line t by its owner, one happening (R142). -/
def releaseLine (p : Port) (t : Line) (s : State) : State :=
  let s1 := if inForce s t then clearTrip t s else s
  { s1 with
    lanes := tabulate fun l => laneAfterRelease s p t l
    trips := s1.trips.set t .reset
    due := { s1.due with trip := s1.due.trip.set t false } }

/-- `trip_release` (R142): range, ownership, then IN_USE. -/
def cmdTripRelease (p : Port) (line : Nat) : Command :=
  inSession p fun s =>
    match lineOf? line with
    | none => refuse .range s
    | some t =>
      if !ownsLine s p t then refuse .notOwner s
      else if namedByForeign s p t then refuse .inUse s
      else okWith (laneSetBytes (setOf fun l => rearmedByRelease s p t l)) (releaseLine p t s)

/-- TRIP_RELEASE. -/
def execTripRelease (p : Port) (tag line : Nat) (s : State) : Host.Outcome State Fault Refusal :=
  .next (whileRunning (takeRequest p tag fun _ => cmdTripRelease p line) s)

/-- The detect state after `trip_set` (R143). -/
def Detect.restart : Detect → Detect
  | .idle => .idle
  | .qualifyingOn => .idle
  | .asserted => .asserted
  | .qualifyingOff => .asserted

/-- New settings for line t (R143). From the next tick the pin is judged under them: a sample of this tick not yet
judged is abandoned (log 17). -/
def setLine (t : Line) (w : TripSettings) (s : State) : State :=
  { s with
    trips := update s.trips t fun r =>
      { r with settings := w, detect := r.detect.restart, qualifyCount := 0 }
    due := { s.due with trip := s.due.trip.set t false } }

/-- The settings that the coded parameters of `trip_set` name (R143). -/
def tripSettingsOf? (polarity qualify mode : Nat) : Option TripSettings :=
  match polarityOf? polarity, tripModeOf? mode with
  | some a, some m => some { polarity := a, qualify := qualify, mode := m }
  | _, _ => none

/-- `trip_set` (R143). -/
def cmdTripSet (p : Port) (line polarity qualify mode : Nat) : Command :=
  inSession p fun s =>
    match lineOf? line, tripSettingsOf? polarity qualify mode with
    | some t, some w =>
        if ownsLine s p t then okWith [byteOf s.trips[t].detect.restart.code] (setLine t w s)
        else refuse .notOwner s
    | _, _ => refuse .range s

/-- TRIP_SET. -/
def execTripSet (p : Port) (tag line polarity qualify mode : Nat) (s : State) : Host.Outcome State Fault Refusal :=
  .next (whileRunning (takeRequest p tag fun _ => cmdTripSet p line polarity qualify mode) s)

/-- A lane is TRIPPED. -/
def LaneStatus.isTripped : LaneStatus → Bool
  | .free => false
  | .leased _ => false
  | .tripped _ _ _ => true
  | .orphaned => false

/-- The lines in force that the masks of a set's TRIPPED lanes name (R144). -/
def stillAsserted (s : State) (set : LaneSet) : LineSet :=
  setOf fun t =>
    inForce s t && someId fun l => set[l] && s.lanes[l].status.isTripped && s.lanes[l].settings.tripMask[t]

/-- The TRIPPED lanes of a set (R144). -/
def trippedOf (s : State) (set : LaneSet) : LaneSet := setOf fun l => set[l] && s.lanes[l].status.isTripped

/-- Every TRIPPED lane of a set given rearm_pending (R144). -/
def rearmLanes (set : LaneSet) (s : State) : State :=
  { s with lanes := tabulate fun l => if set[l] then s.lanes[l].rearmed else s.lanes[l] }

/-- `trip_rearm` (R144): RANGE for the empty set, NOT_OWNER, STILL_ASSERTED with the lines. -/
def cmdTripRearm (p : Port) (lanes : Nat) : Command :=
  inSession p fun s =>
    let set := laneSetOf lanes
    if !nonempty set then refuse .range s
    else if !everyId (fun l => !set[l] || ownsLane s p l) then refuse .notOwner s
    else if nonempty (stillAsserted s set) then
      (s, { status := .stillAsserted, payload := [setByte (stillAsserted s set)] })
    else okWith (laneSetBytes (trippedOf s set)) (rearmLanes set s)

/-- TRIP_REARM. -/
def execTripRearm (p : Port) (tag lanes : Nat) (s : State) : Host.Outcome State Fault Refusal :=
  .next (whileRunning (takeRequest p tag fun _ => cmdTripRearm p lanes) s)

end Sys2Proof.Machine
end

