-- ==== Sys2Proof/Machine/Links.lean ====
section
/-! DEFINITION. The host links: TRANSACTION_BEGIN, BYTE_CLOCKED, TRANSACTION_END (spec/11). -/

namespace Sys2Proof.Machine

/-- The block command a taken request is dispatched to (R167, R173). -/
def dispatch (p : Port) (before : Option Nat) : Request → Command
  | .sessionOpen limit threshold => cmdSessionOpen p limit threshold
  | .nop => cmdNop
  | .status selector => cmdStatus p selector before
  | .sessionClose => cmdSessionClose p
  | .tbStart => cmdTbStart p
  | .tbStop => cmdTbStop p
  | .laneLease lane => cmdLaneLease p lane
  | .laneRelease lane => cmdLaneRelease p lane
  | .laneSet lane onAt length active safe mask => cmdLaneSet p lane onAt length active safe mask
  | .groupBegin => cmdGroupBegin p
  | .groupEnd => cmdGroupEnd p
  | .groupCancel => cmdGroupCancel p
  | .sampleAdd offset channel mode divisor phase maxWait tag =>
      cmdSampleAdd p offset channel mode divisor phase maxWait tag
  | .sampleRemove slot => cmdSampleRemove p slot
  | .readResults max => cmdReadResults p max
  | .readEvents max => cmdReadEvents p max
  | .tripClaim line => cmdTripClaim p line
  | .tripRelease line => cmdTripRelease p line
  | .tripSet line polarity qualify mode => cmdTripSet p line polarity qualify mode
  | .tripRearm lanes => cmdTripRearm p lanes
  | .propose period source window votes => cmdPropose p period source window votes
  | .vote id choice => cmdVote p id choice
  | .withdraw id => cmdWithdraw p id

/-- The request is `tb_start` or `tb_stop`. -/
def setsTimebase (r : Request) : Bool := decide (r = .tbStart) || decide (r = .tbStop)

/-- SELn falls (R166): out of reset a transaction begins, with an empty receive buffer. -/
def Link.select (inReset : Bool) (l : Link) : Link :=
  if l.selLow then l
  else { l with selLow := true, active := !inReset, rx := [], clocked := 0, lastOut := none }

/-- TRANSACTION_BEGIN of a port (R166). With SELn already low there is no falling edge; in reset its level changes and
no transaction begins. -/
def execTransactionBegin (p : Port) (s : State) : Host.Outcome State Fault Refusal :=
  .next { s with links := update s.links p (Link.select s.inReset) }

/-- One whole byte clocked in a transaction (R166): stored while the buffer has room, and the next byte of the held
response shifted out. Outside a transaction SCKn is ignored. -/
def Link.clock (b : Byte) (l : Link) : Link :=
  if l.active then
    { l with
      rx := if l.rx.length < Config.rxCapacity then l.rx ++ [b] else l.rx
      clocked := l.clocked + 1
      lastOut := some (l.held.outByte l.clocked) }
  else l

/-- BYTE_CLOCKED of a port with the byte on SDIn (R166). -/
def execByteClocked (p : Port) (b : Byte) (s : State) : Host.Outcome State Fault Refusal :=
  .next { s with links := update s.links p (Link.clock b) }

/-- The held response after a transaction that carried no request (R168): NONE if it was shifted out whole. -/
def Link.heldAfterIdle (l : Link) : Response :=
  if l.held.frame.length ≤ l.clocked then .none else l.held

/-- The link's own response LINK_ERROR (R171). -/
def linkErrorResponse (tag : Byte) (reason : LinkReason) : Response :=
  { tag := tag, status := .linkError, payload := [byteOf (linkReasonCode reason)] }

/-- The end of a transaction under way at port p, judged by its receive buffer (R167, R168). -/
def endTransaction (p : Port) (s : State) : State :=
  match judgeBuffer s.links[p].rx with
  | .noRequest => hold p s.links[p].heldAfterIdle s
  | .linkError tag reason => hold p (linkErrorResponse tag reason) s
  | .unknown tag => hold p { tag := tag, status := .unknown, payload := [] } s
  | .badLength tag n => hold p { tag := tag, status := .badLength, payload := [byteOf n] } s
  | .taken tag r =>
      if setsTimebase r then takeTimebaseRequest p tag (fun before => dispatch p before r) s
      else takeRequest p tag (fun before => dispatch p before r) s

/-- TRANSACTION_END of a port (R166, R167): SELn rises. Without a transaction under way only its level changes. -/
def execTransactionEnd (p : Port) (s : State) : Host.Outcome State Fault Refusal :=
  .next
    (if s.links[p].active then endTransaction p s
     else { s with links := update s.links p fun l => { l with selLow := false } })

end Sys2Proof.Machine
end

