-- ==== Sys2Proof/Machine/Reset.lean ====
section
/-! DEFINITION. Part reset and its release (00 "Resets and session ends", R1, R166). -/

namespace Sys2Proof.Machine

/-- The part held in reset: every block at its part-reset values, with no event and no boundary (R1, R3). The levels of
the input pins and the waiting commands are outside the part and stay (log 26). -/
def heldInReset (s : State) : State :=
  { State.reset with
    inReset := true
    links := s.links.map fun l => { Link.reset with selLow := l.selLow }
    pins := { s.pins with syncIn := true }
    pending := s.pending }

/-- PART_RESET (R1): power-on or a low level on RESET_N. -/
def execPartReset (s : State) : Host.Outcome State Fault Refusal := .next (heldInReset s)

/-- The part out of reset, the sample of SYNC_IN before the first tick counting as HIGH (R1, R21). -/
def released (s : State) : State :=
  if s.inReset then { s with inReset := false, pins := { s.pins with syncIn := true } } else s

/-- RESET_RELEASE (R1, R21, R166): RESET_N returns high. Without a reset to leave it changes nothing. -/
def execResetRelease (s : State) : Host.Outcome State Fault Refusal := .next (released s)

end Sys2Proof.Machine
end

