-- ==== Sys2Proof/Machine/Sync.lean ====
section
/-! DEFINITION. The sync monitor's happenings: GRACE_EXPIRY and SYNC_EDGE (spec/02). -/

namespace Sys2Proof.Machine

/-- GRACE_EXPIRY (R29): nothing happens unless the counter has taken the value W in LOCKED with the grace open. -/
def execGraceExpiry (s : State) : Host.Outcome State Fault Refusal := .next (happens takeGrace s)

/-- SYNC_EDGE (R21 to R28, R30): the rising edge of this tick; without one nothing happens but the sending of a
SYNC_LOCKED that waits (log 29). -/
def execSyncEdge (s : State) : Host.Outcome State Fault Refusal := .next (happens takeEdge s)

end Sys2Proof.Machine
end

