-- ==== Sys2Proof/Machine/Dispatch.lean ====
section
/-! DEFINITION. One arm per command: the meaning it calls. -/

namespace Sys2Proof.Machine

def exec (i : Instr) (s : State) : Host.Outcome State Fault Refusal :=
  match i with
  | .partReset => Sys2Proof.Machine.execPartReset s
  | .resetRelease => Sys2Proof.Machine.execResetRelease s
  | .tick levels => Sys2Proof.Machine.execTick levels s
  | .wrap => Sys2Proof.Machine.execWrap s
  | .graceExpiry => Sys2Proof.Machine.execGraceExpiry s
  | .syncEdge => Sys2Proof.Machine.execSyncEdge s
  | .commitApply => Sys2Proof.Machine.execCommitApply s
  | .lanesResumed => Sys2Proof.Machine.execLanesResumed s
  | .lapse p => Sys2Proof.Machine.execLapse p s
  | .proposalCommit => Sys2Proof.Machine.execProposalCommit s
  | .proposalExpiry => Sys2Proof.Machine.execProposalExpiry s
  | .slotFire => Sys2Proof.Machine.execSlotFire s
  | .conversionComplete => Sys2Proof.Machine.execConversionComplete s
  | .tripPinSample t => Sys2Proof.Machine.execTripPinSample t s
  | .tripAssertion t => Sys2Proof.Machine.execTripAssertion t s
  | .tripDeassertion t => Sys2Proof.Machine.execTripDeassertion t s
  | .transactionBegin p => Sys2Proof.Machine.execTransactionBegin p s
  | .byteClocked p b => Sys2Proof.Machine.execByteClocked p b s
  | .transactionEnd p => Sys2Proof.Machine.execTransactionEnd p s
  | .sessionOpen p tag limit threshold => Sys2Proof.Machine.execSessionOpen p tag limit threshold s
  | .nop p tag => Sys2Proof.Machine.execNop p tag s
  | .status p tag selector => Sys2Proof.Machine.execStatus p tag selector s
  | .sessionClose p tag => Sys2Proof.Machine.execSessionClose p tag s
  | .tbStart p tag => Sys2Proof.Machine.execTbStart p tag s
  | .tbStop p tag => Sys2Proof.Machine.execTbStop p tag s
  | .laneLease p tag lane => Sys2Proof.Machine.execLaneLease p tag lane s
  | .laneRelease p tag lane => Sys2Proof.Machine.execLaneRelease p tag lane s
  | .laneSet p tag lane onAt length active safe mask => Sys2Proof.Machine.execLaneSet p tag lane onAt length active safe mask s
  | .groupBegin p tag => Sys2Proof.Machine.execGroupBegin p tag s
  | .groupEnd p tag => Sys2Proof.Machine.execGroupEnd p tag s
  | .groupCancel p tag => Sys2Proof.Machine.execGroupCancel p tag s
  | .sampleAdd p tag offset channel mode divisor phase maxWait sampleTag => Sys2Proof.Machine.execSampleAdd p tag offset channel mode divisor phase maxWait sampleTag s
  | .sampleRemove p tag slot => Sys2Proof.Machine.execSampleRemove p tag slot s
  | .readResults p tag max => Sys2Proof.Machine.execReadResults p tag max s
  | .readEvents p tag max => Sys2Proof.Machine.execReadEvents p tag max s
  | .tripClaim p tag line => Sys2Proof.Machine.execTripClaim p tag line s
  | .tripRelease p tag line => Sys2Proof.Machine.execTripRelease p tag line s
  | .tripSet p tag line polarity qualify mode => Sys2Proof.Machine.execTripSet p tag line polarity qualify mode s
  | .tripRearm p tag lanes => Sys2Proof.Machine.execTripRearm p tag lanes s
  | .propose p tag period source window votes => Sys2Proof.Machine.execPropose p tag period source window votes s
  | .vote p tag id choice => Sys2Proof.Machine.execVote p tag id choice s
  | .withdraw p tag id => Sys2Proof.Machine.execWithdraw p tag id s

end Sys2Proof.Machine
end

