-- ==== Sys2Proof/Safety.lean ====
section
/-! DEFINITION. The terms in which claims about the part are made: a state in which a request is judged as it stands, a
state after an answered request, and what every reachable state satisfies (`Sound`). -/

namespace Sys2Proof.Machine

/-! ### States at which a request is judged -/

/-- Nothing that a frame boundary calls for is still to be made. -/
abbrev Quiet (s : State) : Prop :=
  s.due.schedule = false ∧ s.due.locked = none ∧ s.due.commit = false ∧ s.due.agreement = false ∧
    s.due.resume = false ∧ ∀ q : Port, s.sessions[q].lapses = false

/-- Out of reset, with no SYNC_LOCKED waiting for a lapse: a happening is taken on the state as it stands. -/
abbrev Awake (s : State) : Prop := s.inReset = false ∧ s.due.locked = none

/-- Awake, with the lapse of port p not due: a request of p is judged on the state as it stands. -/
abbrev Hears (s : State) (p : Port) : Prop := Awake s ∧ s.sessions[p].lapses = false

/-- A request of port p is judged on the state as it stands, and its session is OPEN. -/
abbrev Ready (s : State) (p : Port) : Prop := Hears s p ∧ s.sessions[p].state = .opened

/-- The state with the silence count of the OPEN port p at 0 (R38). -/
def heard (p : Port) (s : State) : State :=
  { s with sessions := s.sessions.set p { s.sessions[p] with silenceCount := some 0 } }

/-- The state with port p's transaction over and the response with a tag, a status and a payload held for it (R167,
R168). -/
def replied (p : Port) (tag : Nat) (status : Status) (payload : List Byte) (s : State) : State :=
  { s with
    links := s.links.set p
      { selLow := false, active := false, rx := [], clocked := 0, lastOut := none,
        held := { tag := BitVec.ofNat 8 tag, status := status, payload := payload } } }

/-- A refusal without payload of a request of the OPEN port p: only the silence count and the link change (R169). -/
def refused (p : Port) (tag : Nat) (status : Status) (s : State) : Host.Outcome State Fault Refusal :=
  .next (replied p tag status [] (heard p s))

/-- The current tick owes nothing: no edge, sample, boundary, grace expiry, firing or completion is still to be
taken. -/
abbrev OwesNothing (s : State) : Prop :=
  s.inReset = false ∧ Quiet s ∧ s.due = Due.none ∧ graceExpires s = false ∧ (∀ i : Slot, slotDue s i = false) ∧
    ∀ c ∈ s.conv.inFlight, c.elapsed < 40

/-- The number of a set as it is sent: bit n is set for member n (R172). -/
def bits {n : Nat} (set : IdSet n) : Nat := ((List.finRange n).map fun i => if set[i] then 2 ^ i.val else 0).sum

/-! ### What a command gives -/

/-- A command's outcome is a next state with a property. -/
def Gives (o : Host.Outcome State Fault Refusal) (post : State → Prop) : Prop := ∃ t, o = .next t ∧ post t

/-- Port q is bound (R50). -/
def Bound (s : State) (q : Port) : Prop :=
  (∃ l : Lane, s.lanes[l].status.owner? = some q) ∨ (∃ t : Line, s.trips[t].ownership.owner? = some q) ∨
    ∃ i : Slot, ∃ r ∈ s.slots[i], r.owner = q

/-- The state with port p heard if its session is OPEN (R38). -/
def heardIfOpen (p : Port) (s : State) : State := if s.sessions[p].state = .opened then heard p s else s

/-- A session at a frame boundary: an OPEN one counts the frame (R44). -/
def Session.counted (r : Session) : Session :=
  if r.state = .opened then { r with silenceCount := r.silenceCount.map (· + 1) } else r

/-- The sync monitor after an accepted edge with a phase error, its grace closed (R22, R24). -/
def SyncMonitor.accepted (m : SyncMonitor) (phase : Int) : SyncMonitor :=
  { slip := 0
    interval :=
      match m.intervalCounter with
      | some n => n
      | none => m.interval
    phaseError := phase
    intervalCounter := some 0
    grace := false
    lockedOnce := m.lockedOnce }

/-- A frame with a seq qualifies for a slot (R91). -/
def SlotMode.takes (seq : Nat) : SlotMode → Bool
  | .once => true
  | .every => true
  | .divided divisor phase => decide (seq % divisor = phase)

/-- A slot is due in the frame with a seq: LIVE or RETIRING, qualifying, not fired under it (R91). -/
def SlotRec.dueUnder (seq : Nat) (r : SlotRec) : Bool :=
  (decide (r.state = .live) || decide (r.state = .retiring)) && r.mode.takes seq && decide (r.lastFired ≠ some seq)

/-- The SAMPLE_REMOVE of slot i stands unheld in the commit list (R92). -/
def removedNext (s : State) (i : Slot) : Bool :=
  s.commits.any fun e => decide (e.action = .sampleRemove i) && !e.held

/-- A slot's record after it fired under a seq: a ONCE slot is EMPTY (R91, R93). -/
def SlotRec.afterFiring (seq : Nat) (r : SlotRec) : Option SlotRec :=
  if r.mode = .once then none else some { r with lastFired := some seq }

/-- The slot table after the slots that a test picks out have fired under a seq. -/
def slotsFired (test : Slot → SlotRec → Bool) (seq : Nat) (slots : Vector (Option SlotRec) 32) :
    Vector (Option SlotRec) 32 :=
  Vector.ofFn fun i => slots[i].bind fun r => if test i r then r.afterFiring seq else some r

/-- The commit list after firings that left a slot table: the entries that remove a slot emptied by its firing are
deleted (R93). -/
def entriesAfterFiring (before after : Vector (Option SlotRec) 32) (entries : List Entry) : List Entry :=
  entries.filter fun e =>
    match e.action with
    | .laneSet _ _ => true
    | .sampleAdd _ => true
    | .sampleRemove i => before[i].isNone || after[i].isSome

/-- The trigger of slot i with a record, firing now (R91). -/
def triggerNow (s : State) (i : Slot) (r : SlotRec) : ConvRequest :=
  { owner := some r.owner, slot := i, tag := r.tag, channel := r.channel, seq := s.tb.seq, offset := r.offset,
    maxWait := r.maxWait, triggerTime := s.tickStamp }

/-- The code the converter captures for an analog level (R109, log 9). -/
def captured (level : Int) : Nat := if level ≤ 0 then 0 else if 4095 ≤ level then 4095 else level.toNat

/-- The converter after the triggers of one happening, in order, reach it (R105, R106, R107): an IDLE one starts the
first, at age 0, and at most 8 are queued. -/
def convAfter (s : State) (triggers : List ConvRequest) : Converter :=
  match s.conv.inFlight, triggers with
  | none, [] => s.conv
  | none, r :: rest =>
      { inFlight := some { request := r, wait := 0, capture := captured s.pins.ain[r.channel], elapsed := 0 }
        queue := rest.take 8 }
  | some c, rs => { inFlight := some c, queue := (s.conv.queue ++ rs).take 8 }

/-- The triggers of one happening that find 8 requests queued (R105, R106). -/
def turnedAway (s : State) (triggers : List ConvRequest) : List ConvRequest :=
  match s.conv.inFlight, triggers with
  | none, [] => []
  | none, _ :: rest => rest.drop 8
  | some _, rs => (s.conv.queue ++ rs).drop 8

/-- What a LANE_SET applied to a lane makes of it, and the lines it adds to the lane's cause (R64, R65): a LEASED lane is
TRIPPED by the lines of the new mask in force, if there are any; a TRIPPED one keeps of its cause what the new mask names,
gains those lines, and loses rearm_pending if one of them is new. -/
def laneAfterSet (s : State) (w : LaneSettings) (lane : LaneRec) : LaneRec × LineSet :=
  let forced : LineSet := Vector.ofFn fun k => w.tripMask[k] && inForce s k
  match lane.status with
  | .leased p =>
      ({ settings := w, status := if ∃ k : Line, forced[k] = true then .tripped p forced false else .leased p }, forced)
  | .tripped p cause rearm =>
      let added : LineSet := Vector.ofFn fun k => forced[k] && !cause[k]
      ({ settings := w
         status := .tripped p (Vector.ofFn fun k => (cause[k] && w.tripMask[k]) || forced[k])
           (rearm && !decide (∃ k : Line, added[k] = true)) }, added)
  | .free => (lane, Vector.replicate 4 false)
  | .orphaned => (lane, Vector.replicate 4 false)

/-- The lanes after some LANE_SET entries, applied from head to tail, and the TRIP events they call for in their order, each
with the lane's owner (R64, R65, R72; the lines of one entry ascending: log 13). -/
def lanesAfterSets (s : State) (entries : List Entry) : Vector LaneRec 16 × List (Port × Line × Lane) :=
  entries.foldl
    (fun acc e =>
      match e.action with
      | .laneSet l w =>
          let after := laneAfterSet s w acc.1[l]
          (acc.1.set l after.1,
            acc.2 ++ match acc.1[l].status.owner? with
              | none => []
              | some p => ((List.finRange 4).filter fun k => after.2[k]).map fun k => (p, k, l))
      | .sampleAdd _ => acc
      | .sampleRemove _ => acc)
    (s.lanes, [])

/-- A converter with at most 8 requests queued, and none while it is IDLE (R103, R105). -/
abbrev ConverterFits (s : State) : Prop := s.conv.queue.length ≤ 8 ∧ (s.conv.inFlight = none → s.conv.queue = [])

/-! ### What a boundary begins, and what a tick owes -/

/-- The SHORT_FRAME records of a frame cut at counter value c, each with its owner (R96, R97): for every slot LIVE or
RETIRING, due in the frame and not reached by it, in ascending order. -/
def missedAt (c : Nat) (s : State) : List (Port × ResultRec) :=
  (List.finRange 32).filterMap fun i =>
    s.slots[i].bind fun r =>
      if r.dueUnder s.tb.seq && decide (c ≤ r.offset) then
        some (r.owner, { tag := r.tag, slot := i, channel := r.channel, seq := s.tb.seq, offset := r.offset,
                         status := .missed .shortFrame, lostBefore := 0 })
      else none

/-- The state in which a frame with a seq has begun at a boundary (R5, R7, R24, R44, R161): counter 0, the grace as given,
every OPEN port's silence and an OPEN proposal's frame counted, and the responses due, the schedule's with the SHORT_FRAME
records given. -/
def frameBegun (seq : Nat) (grace : Bool) (missed : List (Port × ResultRec)) (s : State) : State :=
  { s with
    tb := { s.tb with counter := 0, seq := seq }
    sync := { s.sync with grace := grace }
    sessions := s.sessions.map Session.counted
    agreement := { s.agreement with
      proposal := s.agreement.proposal.map fun pr =>
        if pr.state = .opened then { pr with framesLeft := pr.framesLeft - 1 } else pr }
    due := { s.due with
      wrap := false, schedule := true, cut := s.due.cut ++ missed, commit := true
      agreement := s.agreement.proposal.isSome, resume := true } }

/-- Result records handed over in order, each for its port (R123). -/
def handedOver (records : List (Port × ResultRec)) (s : State) : State :=
  records.foldl (fun s m => placeResult m.1 m.2 s) s

/-- The state after some commands, each taken on what the one before it left. -/
def afterAll (commands : List Instr) (s : State) : State :=
  commands.foldl
    (fun s c =>
      match exec c s with
      | .next t => t
      | .fault _ => s
      | .refused _ => s)
    s

/-- The happenings that a TICK finds owed by the tick before it and takes first, in the model's order (log 3). -/
def owed : List Instr :=
  [.wrap, .slotFire, .graceExpiry, .conversionComplete, .syncEdge, .slotFire, .commitApply, .proposalCommit,
   .proposalExpiry, .lapse 0, .lapse 1, .lapse 2, .lapse 3, .lanesResumed, .tripPinSample 0, .tripPinSample 1,
   .tripPinSample 2, .tripPinSample 3]

/-! ### What every reachable state satisfies -/

/-- Every queue, tally and list is within its bound (R70, R105, R120, R124, R166). -/
def Bounded (s : State) : Prop :=
  (∀ p : Port, s.delivery[p].results.length ≤ 16 ∧ s.delivery[p].events.length ≤ 8 ∧
    s.delivery[p].lostResults ≤ 255 ∧ s.delivery[p].lostEvents ≤ 255) ∧
  s.conv.queue.length ≤ 8 ∧
  s.commits.length ≤ 24 ∧
  (∀ p : Port, (s.commits.filter fun e => decide (e.port = p)).length ≤ 12) ∧
  ∀ p : Port, s.links[p].rx.length ≤ 28

/-- The states a source allows (R4). -/
def TbState.underSource : TbState → Source → Bool
  | .stopped, _ => true
  | .free, .free => true
  | .free, .follow => false
  | .acquiring, src => decide (src = .follow)
  | .locked, src => decide (src = .follow)
  | .coasting, src => decide (src = .follow)

/-- A source with a sync window in range for a period (R152). -/
def NewSource.inRange (period : Nat) : NewSource → Bool
  | .free => true
  | .follow w => decide (1 ≤ w) && decide (w ≤ 255) && decide (w ≤ period / 8)

/-- The timebase and the sync monitor are in range (R2, R3, R4, R5, R9, R20, R23, R24), what a commit may bring is too
(R150), and a commit can come only with the counter at 0 (R9). -/
def FrameSound (s : State) : Prop :=
  s.tickStamp < 4294967296 ∧
  (64 ≤ s.tb.period ∧ s.tb.period ≤ 65535) ∧
  (1 ≤ s.tb.window ∧ s.tb.window ≤ 255) ∧
  (s.tb.source = .follow → s.tb.window ≤ s.tb.period / 8) ∧
  s.tb.counter < s.tb.period ∧
  s.tb.seq < 65536 ∧
  s.tb.state.underSource s.tb.source = true ∧
  s.sync.slip ≤ 4 ∧
  s.sync.interval ≤ 65535 ∧
  (∀ n ∈ s.sync.intervalCounter, n ≤ 65535) ∧
  (-32767 ≤ s.sync.phaseError ∧ s.sync.phaseError ≤ 32767) ∧
  (s.sync.grace = true → s.tb.state = .locked ∧ s.tb.counter ≤ s.tb.window) ∧
  (∀ pr ∈ s.agreement.proposal, (64 ≤ pr.period ∧ pr.period ≤ 65535) ∧ pr.source.inRange pr.period = true) ∧
  (s.due.agreement = true → s.agreement.proposal.isSome = true ∧ s.tb.counter = 0)

/-- A session record holds the fields its state calls for, in range (R36). An OPEN session whose count has reached its
limit stands at the boundary that raised it (R44). -/
def Session.sound (atBoundary : Bool) (r : Session) : Bool :=
  match r.state, r.silenceLimit, r.silenceCount, r.resultThreshold with
  | .closed, none, none, none => !r.groupOpen
  | .opened, some limit, some count, some threshold =>
      decide (1 ≤ limit) && decide (limit ≤ 65535) && decide (1 ≤ threshold) && decide (threshold ≤ 16)
        && (decide (count < limit) || (decide (count = limit) && atBoundary))
  | .lapsed, some limit, some count, some threshold =>
      decide (1 ≤ limit) && decide (limit ≤ 65535) && decide (1 ≤ threshold) && decide (threshold ≤ 16)
        && decide (count = limit) && !r.groupOpen
  | _, _, _, _ => false

/-- A port holds nothing in any block (R41). -/
def HoldsNothing (s : State) (p : Port) : Prop :=
  (∀ l : Lane, s.lanes[l].status.owner? ≠ some p) ∧
  (∀ t : Line, s.trips[t].ownership.owner? ≠ some p ∧ s.trips[t].informed[p] = false) ∧
  (∀ i : Slot, ∀ r ∈ s.slots[i], r.owner ≠ p) ∧
  (∀ e ∈ s.commits, e.port ≠ p) ∧
  s.groupReport[p] = false ∧
  (∀ c ∈ s.conv.inFlight, c.request.owner ≠ some p) ∧
  (∀ r ∈ s.conv.queue, r.owner ≠ some p) ∧
  s.delivery[p] = { results := [], events := [], lostResults := 0, lostEvents := 0 } ∧
  (∀ pr ∈ s.agreement.proposal, pr.proposer ≠ p ∧ pr.electorate[p] = false ∧ pr.accepted[p] = false) ∧
  (∀ m ∈ s.due.cut, m.1 ≠ p)

/-- Every session record is sound, only a port whose session is OPEN holds anything (R36, R41, R44), and SYNC_LOCKED
waits only in LOCKED and while a lapse is due (that it waits at all is the model's choice, log 29). -/
def SessionsSound (s : State) : Prop :=
  (∀ p : Port, s.sessions[p].sound (decide (s.tb.counter = 0) && !s.due.wrap) = true) ∧
  (∀ p : Port, s.sessions[p].state ≠ .opened → HoldsNothing s p) ∧
  (s.due.locked ≠ none → s.tb.state = .locked ∧ ∃ p : Port, s.sessions[p].lapses = true)

/-- What a lane's state allows, given the lines in force (R51, R52, R136, R145): a FREE lane has the defaults; a LEASED
lane names no line in force; a TRIPPED lane's cause lies in its mask, holds every line of the mask in force, and
rearm_pending stands only when there is none. -/
def laneSound (s : State) (l : Lane) : Prop :=
  match s.lanes[l].status with
  | .free => s.lanes[l].settings = .fresh
  | .leased _ => ∀ t : Line, s.lanes[l].settings.tripMask[t] = true → inForce s t = false
  | .tripped _ cause rearm =>
      ∀ t : Line, (cause[t] = true → s.lanes[l].settings.tripMask[t] = true) ∧
        (s.lanes[l].settings.tripMask[t] = true → inForce s t = true → cause[t] = true ∧ rearm = false)
  | .orphaned => True

/-- What a line's ownership and detect state allow (R132, R133). -/
def lineSound (r : TripLine) : Prop :=
  (r.ownership = .free → r = .reset) ∧
  (r.detect = .idle ∨ r.detect = .asserted → r.qualifyCount = 0) ∧
  (r.detect.inForce = false → r.informed = IdSet.none 4)

/-- Lanes and trip lines are sound, and only a monitored line has a sample to be judged (R134). -/
def TripsSound (s : State) : Prop :=
  (∀ l : Lane, laneSound s l) ∧ (∀ t : Line, lineSound s.trips[t]) ∧
    ∀ t : Line, s.due.trip[t] = true → s.trips[t].ownership ≠ .free

/-- An entry names a slot. -/
def Entry.names (i : Slot) (e : Entry) : Bool := e.adds i || e.removes i

/-- How many entries a slot in this state has (R69). -/
def entriesDue : Option SlotRec → Nat
  | none => 0
  | some r =>
    match r.state with
    | .staged => 1
    | .live => 0
    | .retiring => 1

/-- An entry's target is its port's own, in the state the entry expects (R70). -/
def targetSound (s : State) (e : Entry) : Prop :=
  match e.action with
  | .laneSet l _ => s.lanes[l].status.owner? = some e.port
  | .sampleAdd i => ∃ r ∈ s.slots[i], r.state = .staged ∧ r.owner = e.port
  | .sampleRemove i => ∃ r ∈ s.slots[i], r.state = .retiring ∧ r.owner = e.port

/-- Every entry has its target, every STAGED and RETIRING slot its one entry, and an entry is held only while its
port's group is open and it is not released (R69, R70). -/
def EntriesSound (s : State) : Prop :=
  (∀ e ∈ s.commits, targetSound s e) ∧
  (∀ i : Slot, (s.commits.filter (Entry.names i)).length = entriesDue s.slots[i]) ∧
  ∀ e ∈ s.commits, e.held = true → s.sessions[e.port].groupOpen = true ∧ e.released = false

/-- Everything standing in the part fits a period (R62, R86, R153). -/
def FitsPeriod (s : State) (period : Nat) : Prop :=
  (∀ l : Lane, s.lanes[l].status ≠ .free →
    s.lanes[l].settings.onAt < period ∧ s.lanes[l].settings.length ≤ period) ∧
  (∀ i : Slot, ∀ r ∈ s.slots[i], r.offset < period) ∧
  ∀ e ∈ s.commits,
    match e.action with
    | .laneSet _ w => w.onAt < period ∧ w.length ≤ period
    | .sampleAdd _ => True
    | .sampleRemove _ => True

/-- Everything fits the period in force and, while a proposal exists, the proposed one (R62, R74, R153). -/
def FitSound (s : State) : Prop :=
  FitsPeriod s s.tb.period ∧ ∀ pr ∈ s.agreement.proposal, FitsPeriod s pr.period

/-- The agreement unit's record (R150, R151): a proposal exists only while the timebase is running; its proposer has
accepted; only voters have; it is ACCEPTED exactly when every voter has; and an OPEN one with no frame left is about to
be judged. -/
def AgreementSound (s : State) : Prop :=
  (1 ≤ s.agreement.nextId ∧ s.agreement.nextId ≤ 255) ∧
  ∀ pr ∈ s.agreement.proposal,
    running s = true ∧
    (1 ≤ pr.id ∧ pr.id ≤ 255) ∧
    (1 ≤ pr.voteWindow ∧ pr.voteWindow ≤ 255 ∧ pr.framesLeft ≤ pr.voteWindow) ∧
    pr.accepted[pr.proposer] = true ∧
    (∀ q : Port, pr.accepted[q] = true → pr.electorate[q] = true) ∧
    (pr.state = .accepted ↔ pr.accepted = pr.electorate) ∧
    (pr.state = .opened → pr.framesLeft = 0 → s.due.agreement = true)

/-- The queue of a converter with a conversion in flight for some ticks: the request at place k will be started, if
those ahead of it are, with an age of at most 320 (R111). -/
def queueSound (now elapsed : Nat) (queue : List ConvRequest) : Prop :=
  ∀ k : Fin queue.length,
    queue[k].triggerTime < 4294967296 ∧ ageOf now queue[k].triggerTime + 40 * (k.val + 1) ≤ 320 + elapsed

/-- The converter's record (R103, R109, R111). -/
def ConverterSound (s : State) : Prop :=
  match s.conv.inFlight with
  | none => s.conv.queue = []
  | some c =>
      c.elapsed ≤ 40 ∧ c.wait ≤ 320 ∧ c.capture ≤ 4095 ∧ queueSound s.tickStamp c.elapsed s.conv.queue

/-- What the part keeps true of its state from reset on. -/
def Sound (s : State) : Prop :=
  Bounded s ∧ FrameSound s ∧ SessionsSound s ∧ TripsSound s ∧ EntriesSound s ∧ FitSound s ∧ AgreementSound s ∧
    ConverterSound s

end Sys2Proof.Machine
end

