-- ==== Sys2Proof/Certificates/Slice0/Obligations.lean ====
section
/-! DEFINITION. The statements for the provers, one Prop each. `Awake`, `Hears`, `Ready`, `heard`, `replied`, `refused`,
`frameBegun` and the parts of `Sound` are defined in Sys2Proof/Safety.lean. -/

open Sys2Proof Sys2Proof.Machine

/-! ### The machine -/

/-- A step runs the command at the front of the queue on the state with the queue's rest; on an empty queue the part
idles (the model's choice, log 2). -/
def Obligations.StepTakesTheFront : Prop :=
  ∀ (c : Instr) (rest : List Instr) (s : State),
    step { s with pending := c :: rest } = exec c { s with pending := rest } ∧
      step { s with pending := [] } = .next { s with pending := [] }

/-- No command touches the queue of waiting commands (the model's choice, log 2). -/
def Obligations.CommandsLeaveTheQueue : Prop :=
  ∀ (i : Instr) (s t : State), exec i s = .next t → t.pending = s.pending

/-- The state after reset satisfies every invariant of `Sound`. -/
def Obligations.ResetIsSound : Prop := Sound State.reset

/-- PART_RESET puts every block at its part-reset values, with every output at its reset level; RESET_RELEASE then
starts the part, and a SELn already low begins no transaction (01 1.1, 00 "Resets and session ends", 11.1). -/
def Obligations.PartResetAndRelease : Prop :=
  ∀ s : State, Gives (exec .partReset s) fun t =>
    t.inReset = true ∧ t.tickStamp = 0 ∧
    t.tb = { state := .stopped, source := .free, period := 4000, window := 16, counter := 0, seq := 0 } ∧
    t.sync = { slip := 0, interval := 0, phaseError := 0, intervalCounter := none, grace := false,
               lockedOnce := false } ∧
    (∀ p : Port,
      t.sessions[p] = { state := .closed, silenceLimit := none, silenceCount := none, resultThreshold := none,
                        groupOpen := false } ∧
      t.groupReport[p] = false ∧
      t.delivery[p] = { results := [], events := [], lostResults := 0, lostEvents := 0 } ∧
      t.links[p].held = { tag := 0#8, status := .none, payload := [] } ∧ t.links[p].rx = [] ∧
      sdo t p = .hiz ∧ attn t p = false) ∧
    (∀ l : Lane,
      t.lanes[l] = { status := .free,
                     settings := { onAt := 0, length := 0, activeLevel := .high, safeLevel := .low,
                                   tripMask := Vector.replicate 4 false } } ∧
      laneDrive t l = .hiz) ∧
    t.commits = [] ∧ (∀ i : Slot, t.slots[i] = none) ∧ t.conv = { inFlight := none, queue := [] } ∧
    (∀ k : Line,
      t.trips[k] = { ownership := .free, settings := { polarity := .activeHigh, qualify := 0, mode := .latch },
                     detect := .idle, qualifyCount := 0, informed := Vector.replicate 4 false }) ∧
    t.agreement = { proposal := none, nextId := 1 } ∧ syncOut t = false ∧ t.due = Due.none ∧
    Gives (exec .resetRelease t) fun u =>
      u = { t with inReset := false, pins := { t.pins with syncIn := true } } ∧
      ∀ p : Port, s.links[p].selLow = true → exec (.transactionBegin p) u = .next u

/-- While RESET_N is low no command but the two of the reset pin has an effect beyond the level of a SELn (01 1.1,
11.1). In reset no transaction is under way. -/
def Obligations.NothingHappensInReset : Prop :=
  ∀ (i : Instr) (s t : State), s.inReset = true → (∀ p : Port, s.links[p].active = false) → i ≠ .partReset →
    i ≠ .resetRelease → exec i s = .next t →
      t = { s with links := t.links } ∧
        ∀ p : Port, t.links[p].active = false ∧ t.links[p].held = s.links[p].held

/-! ### Timebase and outputs -/

/-- One tick, in a state that owes nothing: the tick stamp, the frame counter, the interval counter and the conversion
time advance, the pins are sampled, and nothing else changes (01 1.1 and 1.3, 02 2.2 and 2.3, 09 9.2; that a wrap is
left due for WRAP is the model's choice, log 7). In any state out of reset, the tick does so on the state after the
happenings that are owed, in the model's order (log 3). -/
def Obligations.TickAdvances : Prop :=
  ∀ (levels : TickPins) (s : State), s.inReset = false →
    let ticked (s : State) : State := { s with
      tickStamp := if s.tickStamp % 4294967296 = 4294967295 then 0 else s.tickStamp % 4294967296 + 1
      tb := if running s = true ∧ s.tb.counter + 1 < s.tb.period then { s.tb with counter := s.tb.counter + 1 } else s.tb
      sync :=
        if s.tb.state = .acquiring ∨ s.tb.state = .locked ∨ s.tb.state = .coasting then
          { s.sync with intervalCounter := s.sync.intervalCounter.map fun n => if n < 65535 then n + 1 else 65535 }
        else s.sync
      conv := { s.conv with inFlight := s.conv.inFlight.map fun c => { c with elapsed := c.elapsed + 1 } }
      pins := { syncIn := levels.syncIn, trip := levels.trip, ain := levels.ain }
      due := { s.due with
        wrap := decide (running s = true ∧ s.tb.period ≤ s.tb.counter + 1)
        edge := levels.syncIn && !s.pins.syncIn
        trip := Vector.ofFn fun k => decide (s.trips[k].ownership ≠ .free) } }
    (OwesNothing s → exec (.tick levels) s = .next (ticked s)) ∧
      exec (.tick levels) s = .next (ticked (afterAll owed s))

/-- The wrap makes a frame boundary: counter 0, the next seq, the grace opened in LOCKED, every OPEN port's silence
counted, an OPEN proposal counted down, and the responses of the schedule, the commit list, the agreement unit and the trip
monitor due; nothing else changes (01 1.4, 02 2.4, 03 3.6, 06 6.4, 10 10.5; that the counts are taken with the boundary
and the responses left to their rows is the model's choice, log 6 and log 24). With no wrap due nothing changes (log 4). -/
def Obligations.WrapMakesABoundary : Prop :=
  ∀ s : State, Awake s →
    (s.due.wrap = true → running s = true →
      exec .wrap s = .next (frameBegun (if s.tb.seq % 65536 = 65535 then 0 else s.tb.seq % 65536 + 1)
        (if s.tb.state = .locked then true else s.sync.grace) [] s)) ∧
    (s.due.wrap = false ∨ running s = false → exec .wrap s = .next s)

/-- `tb_start`: BUSY in a running state; from STOPPED it starts at counter 0 and seq 0 in the state its source calls for,
clears the monitor under FOLLOW, makes the START boundary and sends TIMEBASE_STARTED; lanes, lines and entries do not change
(01 1.7, 02 2.8, 03 3.6; that the START boundary's responses are left due is the model's choice, log 6 and log 24, and that
TIMEBASE_STARTED stands before their events its reading of R11, log 14). -/
def Obligations.TbStart : Prop :=
  ∀ (p : Port) (tag : Nat) (s : State), Ready s p → Quiet s →
    (running s = true → exec (.tbStart p tag) s = refused p tag .busy s) ∧
    (s.tb.state = .stopped →
      exec (.tbStart p tag) s = .next (replied p tag .ok [] (emitAll .timebaseStarted (frameBegun 0 false []
        { heard p s with
          tb := { s.tb with state := if s.tb.source = .free then .free else .acquiring }
          sync := if s.tb.source = .free then s.sync
            else { slip := 0, interval := 0, phaseError := 0, intervalCounter := none, grace := false,
                   lockedOnce := false } }))))

/-- `tb_stop`: STOPPED, IN_USE when another port is bound, BUSY while a proposal exists; otherwise the timebase stops
where it stands, the grace closes, last_fired is cleared, every queued request is aborted in queue order, and
TIMEBASE_STOPPED goes to every OPEN port; no boundary is made and no lane, line or entry changes (R14; 01 1.8, 06 6.6,
07 7.5; a wrap still due is dropped, log 7). -/
def Obligations.TbStop : Prop :=
  ∀ (p : Port) (tag : Nat) (s : State), Ready s p → Quiet s →
    (s.tb.state = .stopped → exec (.tbStop p tag) s = refused p tag .stopped s) ∧
    (running s = true →
      ((∃ q : Port, q ≠ p ∧ Bound s q) → exec (.tbStop p tag) s = refused p tag .inUse s) ∧
      ((∀ q : Port, q ≠ p → ¬ Bound s q) →
        (s.agreement.proposal.isSome = true → exec (.tbStop p tag) s = refused p tag .busy s) ∧
        (s.agreement.proposal = none →
          exec (.tbStop p tag) s = .next (replied p tag .ok []
            (emitAll (.timebaseStopped p)
              (deliverAll s.conv.queue .aborted
                { heard p s with
                  tb := { s.tb with state := .stopped }
                  sync := { s.sync with grace := false }
                  slots := s.slots.map fun r => r.map fun r => { r with lastFired := none }
                  conv := { s.conv with queue := [] }
                  due := { s.due with wrap := false } }))))))

/-- What the output pins show: each lane by its state, its settings and the timebase, a window wrapping past the end of
the frame included; SYNC_OUT for counter 0 to 7 of a running timebase; ATTNn of an OPEN port by its queues, threshold and
tallies; SDOn OPEN outside a transaction and, in one, at the first bit of the next byte of the held response, LOW after its
last (01 1.6, 04 4.2, 08 8.6, 11.1; between whole bytes: log 11; OPEN under a low SELn with no transaction under way:
log 30). -/
def Obligations.OutputPins : Prop :=
  (∀ (s : State) (l : Lane),
    match s.lanes[l].status with
    | .free => laneDrive s l = .hiz
    | .tripped _ _ _ => laneDrive s l = s.lanes[l].settings.safeLevel
    | .orphaned => laneDrive s l = s.lanes[l].settings.safeLevel
    | .leased _ =>
        let on := if s.lanes[l].settings.activeLevel = .high then Level.high else Level.low
        let off := if s.lanes[l].settings.activeLevel = .high then Level.low else Level.high
        (running s = false → laneDrive s l = off) ∧
        (running s = true → s.tb.counter < s.tb.period → s.lanes[l].settings.onAt < s.tb.period →
          s.lanes[l].settings.length ≤ s.tb.period →
          laneDrive s l =
            if (s.lanes[l].settings.onAt ≤ s.tb.counter ∧
                  s.tb.counter < s.lanes[l].settings.onAt + s.lanes[l].settings.length) ∨
                s.tb.counter + s.tb.period < s.lanes[l].settings.onAt + s.lanes[l].settings.length
            then on else off)) ∧
  (∀ s : State, syncOut s = true ↔ running s = true ∧ s.tb.counter ≤ 7) ∧
  ∀ (s : State) (p : Port),
    (attn s p = true ↔ s.sessions[p].state = .opened ∧
      (s.delivery[p].events ≠ [] ∨ (∃ n ∈ s.sessions[p].resultThreshold, n ≤ s.delivery[p].results.length) ∨
        0 < s.delivery[p].lostResults ∨ 0 < s.delivery[p].lostEvents)) ∧
    (s.links[p].active = false → sdo s p = .hiz) ∧
    (s.links[p].active = true →
      sdo s p =
        match s.links[p].held.frame[s.links[p].clocked]? with
        | some b => if b.getLsbD 7 then .high else .low
        | none => .low)

/-! ### The sync monitor -/

/-- An edge in LOCKED, by the counter and the grace: on time, late (the realignment), stray, or early: an EDGE boundary
that emits no event, with the SHORT_FRAME records of the frame it cuts left to the schedule's response (02 2.4, 01 1.4,
06 6.5; what the boundary leaves due is the model's choice, log 6 and log 24). -/
def Obligations.EdgeInLocked : Prop :=
  ∀ s : State, Awake s → s.due.edge = true → s.due.wrap = false →
    s.tb.state = .locked → s.tb.window ≤ s.tb.period / 8 → s.tb.counter < s.tb.period →
    let c := s.tb.counter
    let taken : State := { s with due := { s.due with edge := false } }
    (c < s.tb.window → s.sync.grace = true → c = 0 →
      exec .syncEdge s = .next { taken with sync := s.sync.accepted 0 }) ∧
    (c < s.tb.window → s.sync.grace = true → 0 < c →
      exec .syncEdge s = .next { taken with tb := { s.tb with counter := 0 }, sync := s.sync.accepted (c : Int) }) ∧
    (c < s.tb.window → s.sync.grace = false → exec .syncEdge s = .next taken) ∧
    (s.tb.window ≤ c → c + s.tb.window < s.tb.period → exec .syncEdge s = .next taken) ∧
    (s.tb.period ≤ c + s.tb.window →
      exec .syncEdge s = .next { frameBegun ((s.tb.seq + 1) % 65536) false (missedAt c s) taken with
        sync := s.sync.accepted (-((s.tb.period : Int) - (c : Int))) })

/-- An edge in ACQUIRING or COASTING is accepted wherever it falls: in one happening it ends the frame unless the counter is
0, measures, locks, and sends SYNC_LOCKED to every OPEN port with *first* by locked_once and the seq after the edge; only
where its boundary makes a lapse due does the event wait for it (R34, log 29), and any command but a lapse and those of the
links and the reset pin sends a waiting one first (what an EDGE boundary leaves due: log 6 and log 24). While STOPPED or FREE
an edge leaves no trace. An edge in the tick of the wrap is judged after the wrap (02 2.2, 2.6, 2.7, 2.9). With no edge
nothing changes (log 4). -/
def Obligations.EdgeLocks : Prop :=
  (∀ (s : State) (i : Instr), s.inReset = false → i ≠ .partReset → i ≠ .resetRelease → (∀ p, i ≠ .lapse p) →
    (∀ p, i ≠ .transactionBegin p) → (∀ p b, i ≠ .byteClocked p b) → (∀ p, i ≠ .transactionEnd p) →
    ∀ first ∈ s.due.locked,
      exec i s = exec i (emitAll (.syncLocked first) { s with due := { s.due with locked := none } })) ∧
  ∀ s : State, Awake s →
    (s.due.edge = false → exec .syncEdge s = .next s) ∧
    (s.due.edge = true →
      let c := s.tb.counter
      let taken : State := { s with due := { s.due with edge := false } }
      (s.due.wrap = true → running s = true →
        Gives (exec .wrap s) fun t => exec .syncEdge s = exec .syncEdge t ∧ t.tb.counter = 0 ∧ t.due.wrap = false) ∧
      (s.tb.state = .stopped ∨ s.tb.state = .free → s.due.wrap = false ∨ s.tb.state = .stopped →
        exec .syncEdge s = .next taken) ∧
      (s.due.wrap = false → s.tb.state = .acquiring ∨ s.tb.state = .coasting →
        let locked (phase : Int) (u : State) : State :=
          { u with
            tb := { u.tb with state := .locked }
            sync := { s.sync.accepted phase with lockedOnce := true } }
        let first := !s.sync.lockedOnce
        (c = 0 → 0 < s.tb.period → exec .syncEdge s = .next (emitAll (.syncLocked first) (locked 0 taken))) ∧
        (0 < c → c < s.tb.period →
          let phase : Int := if 2 * c < s.tb.period then (c : Int) else -((s.tb.period : Int) - (c : Int))
          let u := locked phase (frameBegun ((s.tb.seq + 1) % 65536) false (missedAt c s) taken)
          ((∀ p : Port, u.sessions[p].lapses = false) → exec .syncEdge s = .next (emitAll (.syncLocked first) u)) ∧
          ((∃ p : Port, u.sessions[p].lapses = true) →
            exec .syncEdge s = .next { u with due := { u.due with locked := some first } }))))

/-- The grace runs out when the counter takes the value W in LOCKED with it open: slip rises, and at 4 the lock is lost
with SYNC_LOST; an edge of the same tick is stray, and is dropped here (02 2.4, 2.5, 2.9; where the lock is lost that is the
model's reading, log 28). Otherwise GRACE_EXPIRY changes nothing (log 4). -/
def Obligations.GraceRunsOut : Prop :=
  ∀ s : State, Awake s →
    (s.tb.state = .locked → s.sync.grace = true → s.tb.counter = s.tb.window →
      (s.sync.slip < 3 →
        exec .graceExpiry s = .next { s with
          sync := { s.sync with grace := false, slip := s.sync.slip + 1 }
          due := { s.due with edge := false } }) ∧
      (s.sync.slip = 3 →
        exec .graceExpiry s = .next (emitAll (.syncLost s.sync.interval)
          { s with
            tb := { s.tb with state := .coasting }
            sync := { s.sync with grace := false, slip := 4 }
            due := { s.due with edge := false } }))) ∧
    (s.tb.state ≠ .locked ∨ s.sync.grace = false ∨ s.tb.counter ≠ s.tb.window → exec .graceExpiry s = .next s)

/-! ### The responses to a frame boundary -/

/-- The commit list's response: the unheld entries leave, the held ones stay in order; the LANE_SETs take effect from head
to tail, each on the lane as the ones before it left it, so that a lane ends with the settings of the last one for it, with
its state, cause and rearm_pending and the informed sets of R64 and R65, and the TRIP events go out in the order of the
entries that caused them (the lines of one entry ascending: log 13); no other lane changes; an added slot becomes LIVE, and
fires if its offset is 0 and the frame qualifies, the triggers of these reaching the converter in ascending slot order (a
started one captures the level of its channel as a code: the model's choice, log 9); a removed slot becomes EMPTY; each
reported group gets GROUP_APPLIED, after the TRIP events of its port's lanes (04 4.5, 05 5.2 and 5.3, 06 6.2 and 6.3, 07 7.2
and 7.3, 09 9.3). Without a response due nothing changes (log 4). -/
def Obligations.CommitListApplies : Prop :=
  ∀ s : State, Awake s → (s.due.commit = false → exec .commitApply s = .next s) ∧
    (s.due.commit = true → EntriesSound s → ConverterFits s → Gives (exec .commitApply s) fun t =>
      let applied := s.commits.filter fun e => !e.held
      let fires (r : SlotRec) : Bool :=
        running s && decide (s.tb.counter = r.offset) && { r with state := SlotState.live }.dueUnder s.tb.seq
      let adds (i : Slot) : Bool := applied.any fun e => decide (e.action = .sampleAdd i)
      let triggers := (List.finRange 32).filterMap fun i =>
        s.slots[i].bind fun r => if adds i && fires r then some (triggerNow s i r) else none
      t.commits = s.commits.filter (fun e => e.held) ∧
      (∀ p : Port, t.groupReport[p] = false) ∧
      (∀ l : Lane,
        match (applied.filterMap fun e =>
          match e.action with
          | .laneSet m w => if m = l then some w else none
          | .sampleAdd _ => none
          | .sampleRemove _ => none).getLast? with
        | none => t.lanes[l] = s.lanes[l]
        | some w => t.lanes[l].settings = w ∧ t.lanes[l].status.owner? = s.lanes[l].status.owner?) ∧
      (∀ i : Slot,
        t.slots[i] =
          if applied.any (fun e => decide (e.action = .sampleRemove i)) then none
          else if adds i then
            s.slots[i].bind fun r =>
              let r := { r with state := SlotState.live }
              if fires r then r.afterFiring s.tb.seq else some r
          else s.slots[i]) ∧
      t.conv = convAfter s triggers ∧
      let sets := lanesAfterSets s applied
      t.lanes = sets.1 ∧
      (∀ k : Line, t.trips[k] =
        { s.trips[k] with
          informed := Vector.ofFn fun p =>
            s.trips[k].informed[p] || sets.2.any fun x => decide (x.1 = p ∧ x.2.1 = k) }) ∧
      (∀ p : Port,
        let turned := (deliverAll (turnedAway s triggers) (.missed .queueFull) s).delivery[p]
        t.delivery[p].results = turned.results ∧ t.delivery[p].lostResults = turned.lostResults ∧
        let tripped := (sets.2.filter fun x => decide (x.1 = p)).foldl
          (fun d x => d.pushEvent (.trip x.2.1 ((Vector.replicate 16 false).set x.2.2 true)) s.tb.seq) s.delivery[p]
        let told :=
          if s.sessions[p].state ≠ .opened then s.delivery[p]
          else if s.groupReport[p] = true then
            tripped.pushEvent (.groupApplied (applied.filter fun e => decide (e.port = p) && e.released).length) s.tb.seq
          else tripped
        t.delivery[p].events = told.events ∧ t.delivery[p].lostEvents = told.lostEvents) ∧
      t = { s with commits := t.commits, lanes := t.lanes, slots := t.slots, conv := t.conv, trips := t.trips,
                   delivery := t.delivery, groupReport := t.groupReport, due := { s.due with commit := false } })

/-- One LANE_SET applied. To a LEASED lane: LEASED under the new settings, or TRIPPED by the lines of the new mask in
force. To a TRIPPED lane: it stays TRIPPED, its cause becomes what the new mask still names of the old one with the lines
in force, and rearm_pending is cleared if that adds a line. One TRIP event per added line goes to the owner, ascending
(log 13), and each such line's informed set gains the owner (04 4.5, 09 9.3). -/
def Obligations.LaneSetApplied : Prop :=
  ∀ (s : State) (p : Port) (l : Lane) (w : LaneSettings) (released : Bool), Awake s →
    s.due.commit = true → s.groupReport = Vector.replicate 4 false → s.sessions[p].state = .opened →
    s.commits = [{ port := p, action := .laneSet l w, held := false, released := released }] →
    let forced : LineSet := Vector.ofFn fun k => w.tripMask[k] && inForce s k
    let applied (lane : LaneRec) (added : LineSet) : Prop := Gives (exec .commitApply s) fun t =>
      t = { s with lanes := s.lanes.set l lane, commits := [], due := { s.due with commit := false },
                   trips := t.trips, delivery := t.delivery } ∧
      (∀ k : Line, t.trips[k] =
        { s.trips[k] with
          informed := if added[k] then s.trips[k].informed.set p true else s.trips[k].informed }) ∧
      (∀ q : Port, q ≠ p → t.delivery[q] = s.delivery[q]) ∧
      t.delivery[p] = (members added).foldl
        (fun d k => d.pushEvent (.trip k ((Vector.replicate 16 false).set l true)) s.tb.seq) s.delivery[p]
    match s.lanes[l].status with
    | .leased q => q = p →
        ((∀ k : Line, forced[k] = false) → applied { status := .leased p, settings := w } forced) ∧
        ((∃ k : Line, forced[k] = true) → applied { status := .tripped p forced false, settings := w } forced)
    | .tripped q cause rearm => q = p →
        let added : LineSet := Vector.ofFn fun k => forced[k] && !cause[k]
        applied
          { status := .tripped p (Vector.ofFn fun k => (cause[k] && w.tripMask[k]) || forced[k])
              (rearm && !decide (∃ k : Line, added[k] = true))
            settings := w }
          added
    | .free => True
    | .orphaned => True

/-- The trip monitor's response to a boundary: every lane with rearm_pending becomes LEASED, and each owner of such
lanes gets one LANES_RESUMED listing them. Without a response due nothing changes (log 4). -/
def Obligations.LanesResume : Prop :=
  ∀ s : State, Awake s →
    (s.due.resume = true → Gives (exec .lanesResumed s) fun t =>
      (∀ l : Lane,
        t.lanes[l] =
          match s.lanes[l].status with
          | .tripped p _ true => { s.lanes[l] with status := .leased p }
          | _ => s.lanes[l]) ∧
      (∀ p : Port,
        let mine : LaneSet := Vector.ofFn fun l =>
          match s.lanes[l].status with
          | .tripped q _ true => decide (q = p)
          | _ => false
        t.delivery[p] =
          if (∃ l : Lane, mine[l] = true) ∧ s.sessions[p].state = .opened then
            s.delivery[p].pushEvent (.lanesResumed mine) s.tb.seq
          else s.delivery[p]) ∧
      t = { s with lanes := t.lanes, delivery := t.delivery, due := { s.due with resume := false } }) ∧
    (s.due.resume = false → exec .lanesResumed s = .next s)

/-- The lapse of a port whose silence count has reached its limit: its session, lanes, lines, slots, entries, converter
requests, queues and place in the proposal end as R45 lists, and the other OPEN ports get PORT_LAPSED with the number of
lanes orphaned, after the PROPOSAL_ENDED of a proposal it made (03 3.6; the order of the two events is the model's
choice, log 12). The last lapse due is followed by a SYNC_LOCKED that waits for it (02 2.9, log 29). A port not at its limit
does not lapse (log 4). -/
def Obligations.PortLapses : Prop :=
  ∀ (s : State) (p : Port), s.inReset = false →
    (s.sessions[p].lapses = false → exec (.lapse p) s = .next s) ∧
    (s.sessions[p].state = .opened → (∃ n ∈ s.sessions[p].silenceLimit, s.sessions[p].silenceCount = some n) →
      Gives (exec (.lapse p) s) fun t =>
        let last : Bool := decide (∀ q : Port, q ≠ p → s.sessions[q].lapses = false)
        t.sessions = s.sessions.set p { s.sessions[p] with state := .lapsed, groupOpen := false } ∧
        (∀ l : Lane, t.lanes[l] =
          if s.lanes[l].status.owner? = some p then { status := .orphaned, settings := s.lanes[l].settings }
          else s.lanes[l]) ∧
        (∀ k : Line, t.trips[k] =
          { s.trips[k] with
            ownership := if s.trips[k].ownership = .owned p then .orphaned else s.trips[k].ownership
            informed := s.trips[k].informed.set p false }) ∧
        (∀ i : Slot, t.slots[i] = s.slots[i].filter fun r => decide (r.owner ≠ p)) ∧
        t.commits = s.commits.filter (fun e => decide (e.port ≠ p)) ∧
        t.groupReport = s.groupReport.set p false ∧
        t.conv.queue = s.conv.queue.filter (fun r => decide (r.owner ≠ some p)) ∧
        t.conv.inFlight = s.conv.inFlight.map (fun c =>
          if c.request.owner = some p then { c with request := { c.request with owner := none } } else c) ∧
        t.delivery[p] = { results := [], events := [], lostResults := 0, lostEvents := 0 } ∧
        (∀ q : Port, q ≠ p → s.sessions[q].state = .opened →
          let ended :=
            match s.agreement.proposal with
            | none => s.delivery[q]
            | some pr =>
                if pr.proposer = p then s.delivery[q].pushEvent (.proposalEnded pr.id .withdrawn) s.tb.seq
                else s.delivery[q]
          let told := ended.pushEvent
            (.portLapsed p ((List.finRange 16).countP fun l => decide (s.lanes[l].status.owner? = some p))) s.tb.seq
          t.delivery[q] =
            match s.due.locked with
            | none => told
            | some first => if last then told.pushEvent (.syncLocked first) s.tb.seq else told) ∧
        (∀ q : Port, q ≠ p → s.sessions[q].state ≠ .opened → t.delivery[q] = s.delivery[q]) ∧
        t.agreement.nextId = s.agreement.nextId ∧
        t.agreement.proposal =
          (match s.agreement.proposal with
          | none => none
          | some pr =>
              if pr.proposer = p then none
              else if pr.electorate[p] then
                some { pr with
                  electorate := pr.electorate.set p false
                  accepted := pr.accepted.set p false
                  state := if pr.accepted.set p false = pr.electorate.set p false then .accepted else pr.state }
              else some pr) ∧
        t.due = { s.due with
          agreement := s.due.agreement && s.agreement.proposal.all fun pr => decide (pr.proposer ≠ p)
          cut := s.due.cut.filter fun m => decide (m.1 ≠ p)
          locked := if last then none else s.due.locked } ∧
        t = { s with sessions := t.sessions, lanes := t.lanes, trips := t.trips, slots := t.slots,
                     commits := t.commits, groupReport := t.groupReport, conv := t.conv, delivery := t.delivery,
                     agreement := t.agreement, due := t.due })

/-- At the boundary's agreement response an ACCEPTED proposal commits: the timebase takes its period, source and, for
FOLLOW, window; state and monitor follow the change of source; the proposal ends COMMITTED with the seq of the frame that
begins. -/
def Obligations.ProposalCommits : Prop :=
  ∀ (s : State) (pr : Proposal), Awake s → s.due.agreement = true → s.agreement.proposal = some pr →
    pr.state = .accepted →
    let cleared : SyncMonitor :=
      { slip := 0, interval := 0, phaseError := 0, intervalCounter := none, grace := false, lockedOnce := false }
    let commits (tb : Timebase) (sync : SyncMonitor) : Prop :=
      exec .proposalCommit s = .next (emitAll (.proposalEnded pr.id (.committed s.tb.seq))
        { s with
          tb := tb
          sync := sync
          agreement := { s.agreement with proposal := none }
          due := { s.due with agreement := false } })
    match s.tb.source, pr.source with
    | .free, .free => s.tb.state = .free → commits { s.tb with period := pr.period } s.sync
    | .free, .follow w =>
        commits { s.tb with period := pr.period, source := .follow, window := w, state := .acquiring } cleared
    | .follow, .free => commits { s.tb with period := pr.period, source := .free, state := .free } cleared
    | .follow, .follow w =>
        commits { s.tb with period := pr.period, window := w } { s.sync with slip := 0 }

/-- A frame boundary at which the proposal is OPEN: frames_left falls by 1, here at the wrap (EdgeInLocked and EdgeLocks
say so of an EDGE boundary), and the agreement unit's response is due. Whenever that response is taken of an OPEN proposal,
after a boundary of any kind and after whatever else came first, the proposal ends EXPIRED with one PROPOSAL_ENDED to every
OPEN port if frames_left has reached 0, and otherwise stands, the response being over. (The boundary counts down,
PROPOSAL_EXPIRY judges: log 22.) Without a response due, and for an ACCEPTED proposal or none, PROPOSAL_EXPIRY changes
nothing (log 4). -/
def Obligations.ProposalCountsDown : Prop :=
  ∀ s : State, Awake s →
    (s.due.agreement = false ∨ (∀ pr ∈ s.agreement.proposal, pr.state = .accepted) →
      exec .proposalExpiry s = .next s) ∧
    ∀ pr ∈ s.agreement.proposal, pr.state = .opened →
      (s.due.wrap = true → running s = true → 1 ≤ pr.framesLeft → Gives (exec .wrap s) fun t =>
        Awake t ∧ t.due.agreement = true ∧
        t.agreement.proposal = some { pr with framesLeft := pr.framesLeft - 1 }) ∧
      (s.due.agreement = true →
        (pr.framesLeft = 0 →
          exec .proposalExpiry s = .next (emitAll (.proposalEnded pr.id .expired)
            { s with agreement := { s.agreement with proposal := none }, due := { s.due with agreement := false } })) ∧
        (1 ≤ pr.framesLeft →
          exec .proposalExpiry s = .next { s with due := { s.due with agreement := false } }))

/-! ### The schedule and the converter -/

/-- The schedule's judgement of a tick: at a boundary it first hands over the SHORT_FRAME records of the frame that was cut;
then exactly the due slots at the counter fire, each once under the seq, passing over at a boundary the RETIRING slots
whose removal is about to be applied; a ONCE slot becomes EMPTY and its SAMPLE_REMOVE entry goes; their triggers, in
ascending slot order, start an IDLE converter, whose code is the level of the channel (log 9), and fill the queue up to 8,
and each further one gives its owner a QUEUE_FULL record (06 6.4 and 6.5, 07 7.2 and 7.3; the response to a boundary as a
row of its own: log 24). -/
def Obligations.SlotsFire : Prop :=
  ∀ s : State, Awake s → ConverterFits s → Gives (exec .slotFire s) fun t =>
      let due (i : Slot) (r : SlotRec) : Bool :=
        running s && decide (s.tb.counter = r.offset) && r.dueUnder s.tb.seq && !(s.due.commit && removedNext s i)
      let triggers := (List.finRange 32).filterMap fun i =>
        s.slots[i].bind fun r => if due i r then some (triggerNow s i r) else none
      t.slots = slotsFired due s.tb.seq s.slots ∧
      t.commits = entriesAfterFiring s.slots t.slots s.commits ∧
      t.conv = convAfter s triggers ∧
      t.delivery = (deliverAll (turnedAway s triggers) (.missed .queueFull) (handedOver s.due.cut s)).delivery ∧
      t = { s with slots := t.slots, commits := t.commits, conv := t.conv, delivery := t.delivery,
                   due := { s.due with schedule := false, cut := [] } }

/-- The completion of a conversion after 40 ticks: an OK record for the owner if present, then the stale requests at the
head become MISSED STALE records in queue order, and the first that is not stale is started with its age as its wait and
the level of its channel captured (as a code: log 9); with none the converter is IDLE. Before 40 ticks (the model's count,
log 18) nothing happens (log 4). -/
def Obligations.ConversionCompletes : Prop :=
  ∀ s : State, Awake s →
    (s.conv.inFlight = none → exec .conversionComplete s = .next s) ∧
    ∀ c ∈ s.conv.inFlight,
      (c.elapsed < 40 → exec .conversionComplete s = .next s) ∧
      (40 ≤ c.elapsed →
        let age (r : ConvRequest) : Nat := (s.tickStamp + 4294967296 - r.triggerTime) % 4294967296
        let stale (r : ConvRequest) : Bool := decide (r.maxWait < 255) && decide (r.maxWait < age r)
        let told :=
          match c.request.owner with
          | none => s
          | some p => placeResult p
              { tag := c.request.tag, slot := c.request.slot, channel := c.request.channel, seq := c.request.seq,
                offset := c.request.offset, status := .ok c.capture c.wait, lostBefore := 0 } s
        exec .conversionComplete s = .next (deliverAll (s.conv.queue.takeWhile stale) (.missed .stale)
          { told with
            conv :=
              match s.conv.queue.dropWhile stale with
              | [] => { inFlight := none, queue := [] }
              | r :: rest =>
                  { inFlight :=
                      some { request := r, wait := age r, capture := captured s.pins.ain[r.channel], elapsed := 0 }
                    queue := rest } }))

/-- An edge that cuts the frame at c gives each owner of a slot LIVE or RETIRING, due in that frame and not reached by
it, one MISSED SHORT_FRAME record with the seq of the frame that ends, in ascending slot order. The records are made on the
slots as they stood at the edge and handed over in the schedule's response, before any record of the new frame's
triggers, which are those of slots at offset 0 (06 6.5; the response as a row of its own: log 24). -/
def Obligations.ShortFrameRecords : Prop :=
  ∀ s : State, Awake s → s.due.edge = true → s.due.wrap = false → s.due.cut = [] →
    0 < s.tb.counter → s.tb.counter < s.tb.period → s.tb.window ≤ s.tb.period / 8 →
    s.tb.state = .acquiring ∨ s.tb.state = .coasting ∨
      (s.tb.state = .locked ∧ s.tb.period ≤ s.tb.counter + s.tb.window) →
    ConverterFits s → Gives (exec .syncEdge s) fun t =>
      let missed := (List.finRange 32).filterMap fun i =>
        s.slots[i].bind fun r =>
          if r.dueUnder s.tb.seq && decide (s.tb.counter ≤ r.offset) then
            some (r.owner, ({ tag := r.tag, slot := i, channel := r.channel, seq := s.tb.seq, offset := r.offset,
                              status := .missed .shortFrame, lostBefore := 0 } : ResultRec))
          else none
      t.due.cut = missed ∧ t.slots = s.slots ∧ t.commits = s.commits ∧ t.conv = s.conv ∧
      (∀ p : Port, t.delivery[p].results = s.delivery[p].results ∧
        t.delivery[p].lostResults = s.delivery[p].lostResults) ∧
      Gives (exec .slotFire t) fun u =>
        u.due.cut = [] ∧ ∃ turned : List ConvRequest, (∀ r ∈ turned, r.offset = 0 ∧ r.seq = t.tb.seq) ∧
          let told := deliverAll turned (.missed .queueFull) (missed.foldl (fun v m => placeResult m.1 m.2 v) s)
          ∀ p : Port, u.delivery[p].results = told.delivery[p].results ∧
            u.delivery[p].lostResults = told.delivery[p].lostResults

/-! ### Trip lines -/

/-- The judgement of a tick's sample of a monitored line, row by row; a sample that completes a qualification is the
line's assertion or deassertion. A sample is judged once; without one nothing changes (log 4). -/
def Obligations.TripSampleJudged : Prop :=
  ∀ (s : State) (k : Line), Awake s →
    (s.due.trip[k] = false → exec (.tripPinSample k) s = .next s) ∧
    (s.due.trip[k] = true →
      let r := s.trips[k]
      let active : Bool := if r.settings.polarity = .activeHigh then s.pins.trip[k] else !s.pins.trip[k]
      let moves (d : Detect) (n : Nat) : Prop :=
        exec (.tripPinSample k) s = .next { s with
          trips := s.trips.set k { r with detect := d, qualifyCount := n }
          due := { s.due with trip := s.due.trip.set k false } }
      let asserts : Prop := exec (.tripPinSample k) s = exec (.tripAssertion k) s
      let deasserts : Prop := exec (.tripPinSample k) s = exec (.tripDeassertion k) s
      match r.detect, active with
      | .idle, false => moves .idle 0
      | .idle, true => if r.settings.qualify = 0 then asserts else moves .qualifyingOn 0
      | .qualifyingOn, false => moves .idle 0
      | .qualifyingOn, true =>
          if r.settings.qualify ≤ r.qualifyCount + 1 then asserts else moves .qualifyingOn (r.qualifyCount + 1)
      | .asserted, true => moves .asserted 0
      | .asserted, false => if r.settings.qualify = 0 then deasserts else moves .qualifyingOff 0
      | .qualifyingOff, true => moves .asserted 0
      | .qualifyingOff, false =>
          if r.settings.qualify ≤ r.qualifyCount + 1 then deasserts else moves .qualifyingOff (r.qualifyCount + 1))

/-- The assertion of a line: every LEASED lane that names it is TRIPPED by it, every TRIPPED one gains it and loses
rearm_pending, ORPHANED and other lanes stay; each owner of affected lanes gets one TRIP event listing them, the line's
owner one even with none; informed becomes the recipients (09 9.3). -/
def Obligations.LineAsserts : Prop :=
  ∀ (s : State) (k : Line), Awake s → s.due.trip[k] = true →
    (s.trips[k].settings.polarity = .activeHigh ↔ s.pins.trip[k] = true) →
    ((s.trips[k].detect = .idle ∧ s.trips[k].settings.qualify = 0) ∨
      (s.trips[k].detect = .qualifyingOn ∧ s.trips[k].settings.qualify ≤ s.trips[k].qualifyCount + 1)) →
    Gives (exec (.tripAssertion k) s) fun t =>
      let affected (p : Port) : LaneSet := Vector.ofFn fun l =>
        s.lanes[l].settings.tripMask[k] && decide (s.lanes[l].status.owner? = some p)
      let told (p : Port) : Bool :=
        decide (∃ l : Lane, (affected p)[l] = true) || decide (s.trips[k].ownership = .owned p)
      (∀ l : Lane, t.lanes[l] =
        if s.lanes[l].settings.tripMask[k] then
          match s.lanes[l].status with
          | .leased p => { s.lanes[l] with status := .tripped p ((Vector.replicate 4 false).set k true) false }
          | .tripped p cause _ => { s.lanes[l] with status := .tripped p (cause.set k true) false }
          | .free => s.lanes[l]
          | .orphaned => s.lanes[l]
        else s.lanes[l]) ∧
      t.trips = s.trips.set k
        { s.trips[k] with detect := .asserted, qualifyCount := 0, informed := Vector.ofFn told } ∧
      (∀ p : Port, t.delivery[p] =
        if told p = true ∧ s.sessions[p].state = .opened then
          s.delivery[p].pushEvent (.trip k (affected p)) s.tb.seq
        else s.delivery[p]) ∧
      t = { s with lanes := t.lanes, trips := t.trips, delivery := t.delivery,
                   due := { s.due with trip := s.due.trip.set k false } }

/-- The deassertion of a line: TRIP_CLEARED to its informed ports, informed emptied; under FOLLOW the TRIPPED lanes whose
cause holds it, with no mask line in force any more and no LATCH line in the cause, get rearm_pending (09 9.4). -/
def Obligations.LineDeasserts : Prop :=
  ∀ (s : State) (k : Line), Awake s → s.due.trip[k] = true →
    (s.trips[k].settings.polarity = .activeHigh ↔ s.pins.trip[k] = false) →
    ((s.trips[k].detect = .asserted ∧ s.trips[k].settings.qualify = 0) ∨
      (s.trips[k].detect = .qualifyingOff ∧ s.trips[k].settings.qualify ≤ s.trips[k].qualifyCount + 1)) →
    Gives (exec (.tripDeassertion k) s) fun t =>
      t.trips = s.trips.set k
        { s.trips[k] with detect := .idle, qualifyCount := 0, informed := Vector.replicate 4 false } ∧
      (∀ l : Lane, t.lanes[l] =
        match s.lanes[l].status with
        | .tripped p cause rearm =>
            { s.lanes[l] with
              status := .tripped p cause
                (rearm ||
                  (decide (s.trips[k].settings.mode = .follow) && cause[k] &&
                    decide (∀ j : Line, j ≠ k → s.lanes[l].settings.tripMask[j] = true → inForce s j = false) &&
                    decide (∀ j : Line, cause[j] = true → s.trips[j].settings.mode = .follow))) }
        | .free => s.lanes[l]
        | .leased _ => s.lanes[l]
        | .orphaned => s.lanes[l]) ∧
      (∀ p : Port, t.delivery[p] =
        if s.trips[k].informed[p] = true ∧ s.sessions[p].state = .opened then
          s.delivery[p].pushEvent (.tripCleared k) s.tb.seq
        else s.delivery[p]) ∧
      t = { s with lanes := t.lanes, trips := t.trips, delivery := t.delivery,
                   due := { s.due with trip := s.due.trip.set k false } }

/-! ### Host links -/

/-- A falling SELn begins a transaction with an empty receive buffer; each whole byte is stored while there is room for
28 and shifts out the next byte of the held response, 0x00 after its last; outside a transaction bytes are ignored
(11.1; whole bytes: log 11). A response's frame is its length, tag, status code and payload, and the CRC-8 of these (11.3,
11.6). -/
def Obligations.TransactionBytes : Prop :=
  ∀ (s : State) (p : Port) (b : Byte),
    (s.inReset = false → s.links[p].selLow = false →
      exec (.transactionBegin p) s = .next { s with
        links := s.links.set p
          { selLow := true, active := true, rx := [], clocked := 0, lastOut := none, held := s.links[p].held } }) ∧
    (s.links[p].active = true →
      exec (.byteClocked p b) s = .next { s with
        links := s.links.set p
          { s.links[p] with
            rx := if s.links[p].rx.length < 28 then s.links[p].rx ++ [b] else s.links[p].rx
            clocked := s.links[p].clocked + 1
            lastOut := some (s.links[p].held.frame.getD s.links[p].clocked 0#8) } }) ∧
    (s.links[p].active = false → exec (.byteClocked p b) s = .next s) ∧
    ∀ r : Response,
      let status : Byte :=
        match r.status with
        | .ok => 0x00#8
        | .none => 0x01#8
        | .linkError => 0x02#8
        | .unknown => 0x03#8
        | .badLength => 0x04#8
        | .noSession => 0x05#8
        | .lapsed => 0x06#8
        | .range => 0x07#8
        | .notOwner => 0x08#8
        | .held => 0x09#8
        | .busy => 0x0A#8
        | .stopped => 0x0B#8
        | .inUse => 0x0C#8
        | .doesNotFit => 0x0D#8
        | .tableFull => 0x0E#8
        | .listFull => 0x0F#8
        | .quota => 0x10#8
        | .stillAsserted => 0x11#8
        | .noGroup => 0x12#8
        | .noProposal => 0x13#8
        | .notEligible => 0x14#8
        | .alreadyVoted => 0x15#8
      let body := [BitVec.ofNat 8 (r.payload.length + 4), r.tag, status] ++ r.payload
      r.frame = body ++ [crc8 body]

/-- The end of a transaction that takes no request: an empty or idle one keeps the held response unless it was shifted
out whole; a short frame, a wrong CRC, an unknown code and a wrong payload length get the link's own responses. No block
changes (11.2, 11.3). -/
def Obligations.TransactionEndWithoutRequest : Prop :=
  ∀ (s : State) (p : Port), s.links[p].active = true →
    let ends (held : Response) : Prop :=
      exec (.transactionEnd p) s = .next { s with
        links := s.links.set p
          { selLow := false, active := false, rx := [], clocked := 0, lastOut := none, held := held } }
    match s.links[p].rx with
    | [] =>
        ends (if s.links[p].held.frame.length ≤ s.links[p].clocked then { tag := 0#8, status := .none, payload := [] }
          else s.links[p].held)
    | code :: rest =>
      (code = 0#8 →
        ends (if s.links[p].held.frame.length ≤ s.links[p].clocked then
            { tag := 0#8, status := .none, payload := [] } else s.links[p].held)) ∧
      (code ≠ 0#8 →
        match rest with
        | [] => ends { tag := 0#8, status := .linkError, payload := [1#8] }
        | [tag] => ends { tag := tag, status := .linkError, payload := [1#8] }
        | tag :: len :: body =>
          (body.length ≤ len.toNat → ends { tag := tag, status := .linkError, payload := [1#8] }) ∧
          (len.toNat < body.length →
            let sound : Prop := body[len.toNat]? = some (crc8 ([code, tag, len] ++ body.take len.toNat))
            (¬ sound → ends { tag := tag, status := .linkError, payload := [0#8] }) ∧
            (sound → requiredLength code = none → ends { tag := tag, status := .unknown, payload := [] }) ∧
            (sound → ∀ n ∈ requiredLength code, len.toNat ≠ n →
              ends { tag := tag, status := .badLength, payload := [BitVec.ofNat 8 n] })))

/-- Every frame a host can send for a request is read back as that request with its tag, whatever bytes follow its
CRC. The CRC is that of R170: from 0xFF, each byte combined by exclusive-or and the register multiplied by x⁸ modulo the
polynomial 0x12F, written here bit by bit: bit n of a byte stands for xⁿ, and a frame with its CRC appended leaves 0. -/
def Obligations.FramesReadBack : Prop :=
  (∀ (r : Request) (tag : Nat) (extra : List Byte), r.wellFormed = true → tag < 256 →
    judgeBuffer (r.frame tag ++ extra) = .taken tag r) ∧
  crc8 [] = 0xFF#8 ∧
  (∀ (bytes : List Byte) (b : Byte),
    let times (r : BitVec 9) : BitVec 9 := if r.getLsbD 7 then (r <<< 1) ^^^ 0x12F#9 else r <<< 1
    let shifted := (List.range 8).foldl (fun r _ => times r) ((crc8 bytes ^^^ b).setWidth 9)
    crc8 (bytes ++ [b]) = shifted.setWidth 8) ∧
  ∀ bytes : List Byte, crc8 (bytes ++ [crc8 bytes]) = 0#8

/-- A whole transaction that carries a request, clocked byte by byte from the queue, does exactly what the request's own
row does (the rows as ends of transactions: log 8). -/
def Obligations.TransactionCarriesTheRequest : Prop :=
  ∀ (r : Request) (p : Port) (tag : Nat) (rest : List Instr) (s : State), r.wellFormed = true → tag < 256 →
    s.inReset = false → s.links[p].selLow = false →
    Sys2Proof.core.run ((r.frame tag).length + 2)
      ({ s with
        pending :=
          .transactionBegin p :: ((r.frame tag).map fun b => Instr.byteClocked p b) ++ .transactionEnd p :: rest } :
        State) =
      exec (r.toInstr p tag) { s with pending := rest }

/-- A record handed over: it enters a queue with room at the tail, taking the tally as its lost_before and clearing it;
a full queue counts it, up to 255; a port not OPEN has it discarded; and nothing else changes. The records of a run of
requests are handed over in order, each for its request's owner, if it has one, with the request's tag, slot, channel, seq
and offset (07 7.4). -/
def Obligations.RecordsPlaced : Prop :=
  (∀ (f : Port → Option Event) (s : State),
    emit f s = { s with delivery := (emit f s).delivery } ∧
    ∀ p : Port,
      (emit f s).delivery[p] =
        match f p with
        | none => s.delivery[p]
        | some e =>
          if s.sessions[p].state = .opened then
            if s.delivery[p].events.length < 8 then
              { s.delivery[p] with
                events := s.delivery[p].events ++
                  [{ event := e, seq := s.tb.seq, lostBefore := s.delivery[p].lostEvents }]
                lostEvents := 0 }
            else
              { s.delivery[p] with
                lostEvents := if s.delivery[p].lostEvents < 255 then s.delivery[p].lostEvents + 1 else 255 }
          else s.delivery[p]) ∧
  (∀ (p : Port) (r : ResultRec) (s : State),
    placeResult p r s = { s with delivery := (placeResult p r s).delivery } ∧
    (∀ q : Port, q ≠ p → (placeResult p r s).delivery[q] = s.delivery[q]) ∧
    (placeResult p r s).delivery[p] =
      if s.sessions[p].state = .opened then
        if s.delivery[p].results.length < 16 then
          { s.delivery[p] with
            results := s.delivery[p].results ++ [{ r with lostBefore := s.delivery[p].lostResults }]
            lostResults := 0 }
        else
          { s.delivery[p] with
            lostResults := if s.delivery[p].lostResults < 255 then s.delivery[p].lostResults + 1 else 255 }
      else s.delivery[p]) ∧
  (∀ (status : ResultStatus) (s : State), deliverAll [] status s = s) ∧
  ∀ (r : ConvRequest) (rs : List ConvRequest) (status : ResultStatus) (s : State),
    deliverAll (r :: rs) status s = deliverAll rs status
      (match r.owner with
        | none => s
        | some p => placeResult p
            { tag := r.tag, slot := r.slot, channel := r.channel, seq := r.seq, offset := r.offset, status := status,
              lostBefore := 0 } s)

/-! ### Requests: sessions -/

/-- Every request but `session_open`, `status` and `nop` is refused NO_SESSION from CLOSED and LAPSED from LAPSED, and
then only the port's link changes (03 3.1). A request of a port whose lapse is due is taken after the lapse (03 3.6, log 5),
a `tb_start` or `tb_stop` after all that a boundary still calls for (01 1.8, log 5); a SYNC_LOCKED that waits is sent before
it (EdgeLocks). -/
def Obligations.SessionCheck : Prop :=
  ∀ (r : Request) (p : Port) (tag : Nat) (s : State), s.inReset = false →
    (r = .tbStart ∨ r = .tbStop → exec (r.toInstr p tag) s = exec (r.toInstr p tag) (finishBoundary s)) ∧
    (r ≠ .tbStart → r ≠ .tbStop → s.due.locked = none → s.sessions[p].lapses = true →
      Gives (exec (.lapse p) s) fun t => exec (r.toInstr p tag) s = exec (r.toInstr p tag) t) ∧
    (r ≠ .nop → (∀ n, r ≠ .status n) → (∀ a b, r ≠ .sessionOpen a b) →
      (r = .tbStart ∨ r = .tbStop → Quiet s) → s.due.locked = none →
        (s.sessions[p].state = .closed → exec (r.toInstr p tag) s = .next (replied p tag .noSession [] s)) ∧
        (s.sessions[p].state = .lapsed → exec (r.toInstr p tag) s = .next (replied p tag .lapsed [] s)))

/-- A request that is not answered OK changes nothing but the silence count of its OPEN port and the port's link (11.2). -/
def Obligations.RefusedChangesNothing : Prop :=
  ∀ (r : Request) (p : Port) (tag : Nat) (s t : State), Hears s p → (r = .tbStart ∨ r = .tbStop → Quiet s) →
    exec (r.toInstr p tag) s = .next t →
    t.links[p].held.status ≠ .ok → t = { heardIfOpen p s with links := t.links } ∧
      ∀ q : Port, q ≠ p → t.links[q] = s.links[q]

/-- `session_open`: RANGE, then BUSY when OPEN; from CLOSED or LAPSED it opens the session with the limit and threshold
given, count 0 and no group (03 3.3). -/
def Obligations.SessionOpens : Prop :=
  ∀ (p : Port) (tag limit threshold : Nat) (s : State), Hears s p →
    (limit = 0 ∨ 65535 < limit ∨ threshold = 0 ∨ 16 < threshold →
      exec (.sessionOpen p tag limit threshold) s = .next (replied p tag .range [] (heardIfOpen p s))) ∧
    (1 ≤ limit → limit ≤ 65535 → 1 ≤ threshold → threshold ≤ 16 →
      (s.sessions[p].state = .opened →
        exec (.sessionOpen p tag limit threshold) s = refused p tag .busy s) ∧
      (s.sessions[p].state ≠ .opened →
        exec (.sessionOpen p tag limit threshold) s = .next (replied p tag .ok []
          { s with
            sessions := s.sessions.set p
              { state := .opened, silenceLimit := some limit, silenceCount := some 0,
                resultThreshold := some threshold, groupOpen := false } })))

/-- `nop` is answered OK in every session state; it resets an OPEN port's silence and changes nothing else. -/
def Obligations.NopAnswers : Prop :=
  ∀ (p : Port) (tag : Nat) (s : State), Hears s p →
    exec (.nop p tag) s = .next (replied p tag .ok [] (heardIfOpen p s))

/-- `status`: RANGE for a selector above 4; otherwise OK with the fields of its selector, in the order and encoding of
Host Links, changing nothing but an OPEN port's silence (03 3.5, 01 1.9, 02 2.10, 04 4.7, 06 6.9, 09 9.9, 10 10.8,
11.4). -/
def Obligations.StatusReports : Prop :=
  ∀ (p : Port) (tag : Nat) (s : State), Hears s p →
    let two (n : Nat) : List Byte := [BitVec.ofNat 8 (n / 256), BitVec.ofNat 8 n]
    let one (n : Nat) : List Byte := [BitVec.ofNat 8 n]
    let flag (b : Bool) : List Byte := if b then [1#8] else [0#8]
    let opt (f : Nat → List Byte) (o : Option Nat) : List Byte :=
      match o with
      | none => []
      | some n => f n
    let level (v : Level) : List Byte :=
      match v with
      | .high => [0#8]
      | .low => [1#8]
      | .hiz => [2#8]
    let tbState : Nat :=
      match s.tb.state with
      | .stopped => 0
      | .free => 1
      | .acquiring => 2
      | .locked => 3
      | .coasting => 4
    let source : Nat :=
      match s.tb.source with
      | .free => 0
      | .follow => 1
    let reports (selector : Nat) (payload : List Byte) : Prop :=
      exec (.status p tag selector) s = .next (replied p tag .ok payload (heardIfOpen p s))
    (∀ selector, 5 ≤ selector →
      exec (.status p tag selector) s = .next (replied p tag .range [] (heardIfOpen p s))) ∧
    reports 0
      (one tbState ++ one source ++ two s.tb.period ++ one s.tb.window ++ two s.tb.seq
        ++ two s.tb.counter ++ flag s.conv.inFlight.isSome ++ one s.conv.queue.length ++ one s.commits.length
        ++ (match s.agreement.proposal with
            | none => one 0
            | some pr =>
                one pr.id ++ one pr.proposer.val ++ one (match pr.state with | .opened => 0 | .accepted => 1) ++ two pr.period ++ (match pr.source with
                      | .free => one 0
                      | .follow w => one 1 ++ one w)
                  ++ one pr.framesLeft ++ one (bits pr.electorate) ++ one (bits pr.accepted))
        ++ two s.sync.interval ++ two (s.sync.phaseError % 65536).toNat ++ one s.sync.slip) ∧
    reports 1
      (one p.val ++ one (match s.sessions[p].state with | .closed => 0 | .opened => 1 | .lapsed => 2) ++ opt two s.sessions[p].silenceLimit
        ++ opt two s.sessions[p].silenceCount ++ opt one s.sessions[p].resultThreshold
        ++ flag s.sessions[p].groupOpen ++ flag (bound s p) ++ one s.delivery[p].results.length
        ++ one s.delivery[p].events.length ++ one s.delivery[p].lostResults ++ one s.delivery[p].lostEvents) ∧
    (bound s p = true ↔ Bound s p) ∧
    reports 2
      ((List.finRange 16).flatMap fun l =>
        (match s.lanes[l].status with
          | .free => one 0
          | .leased _ => one 1
          | .tripped _ _ _ => one 2
          | .orphaned => one 3) ++ opt one (s.lanes[l].status.owner?.map fun q => q.val)
          ++ two s.lanes[l].settings.onAt ++ two s.lanes[l].settings.length
          ++ one (match s.lanes[l].settings.activeLevel with | .high => 0 | .low => 1) ++ level s.lanes[l].settings.safeLevel
          ++ one (bits s.lanes[l].settings.tripMask) ++ one (bits s.lanes[l].status.cause)
          ++ flag s.lanes[l].status.rearm ++ level (laneDrive s l)
          ++ one (s.commits.countP fun e =>
              match e.action with
              | .laneSet m _ => decide (m = l)
              | .sampleAdd _ => false
              | .sampleRemove _ => false)) ∧
    reports 3
      ((List.finRange 4).flatMap fun k =>
        one (match s.trips[k].ownership with | .free => 0 | .owned _ => 1 | .orphaned => 2) ++ opt one (s.trips[k].ownership.owner?.map fun q => q.val)
          ++ one (match s.trips[k].settings.polarity with | .activeHigh => 0 | .activeLow => 1) ++ one s.trips[k].settings.qualify
          ++ one (match s.trips[k].settings.mode with | .latch => 0 | .follow => 1) ++ one (match s.trips[k].detect with | .idle => 0 | .qualifyingOn => 1 | .asserted => 2 | .qualifyingOff => 3)
          ++ two (bits (Vector.ofFn fun l : Lane =>
              decide (s.lanes[l].status ≠ .free) && s.lanes[l].settings.tripMask[k]))) ∧
    reports 4
      ((List.finRange 32).flatMap fun i =>
        match s.slots[i] with
        | none => one 0
        | some r => one (match r.state with | .staged => 1 | .live => 2 | .retiring => 3) ++ one r.owner.val ++ two r.offset ++ one (match r.mode with | .once => 0 | .every => 1 | .divided _ _ => 2))

/-- `session_close` ends the session of the OPEN requester: every block releases what it held as R41 lists; its lines
become FREE, after TRIP_CLEARED for one in force, or ORPHANED where another port's lane names them; the others get these
TRIP_CLEARED in ascending line order and then the PROPOSAL_ENDED of a proposal it made (that order: log 12); no other
session, the timebase and the monitor do not change (03 3.4, 04 4.6, 05 5.4, 06 6.7, 07 7.6, 08 8.7, 09 9.8, 10 10.4). -/
def Obligations.SessionCloses : Prop :=
  ∀ (p : Port) (tag : Nat) (s : State), Ready s p → Gives (exec (.sessionClose p tag) s) fun t =>
    let named (k : Line) : Bool := decide (∃ l : Lane, s.lanes[l].settings.tripMask[k] = true ∧
      s.lanes[l].status.owner? ≠ none ∧ s.lanes[l].status.owner? ≠ some p)
    let freed (k : Line) : Bool := decide (s.trips[k].ownership = .owned p) && !named k
    t.sessions = s.sessions.set p
      { state := .closed, silenceLimit := none, silenceCount := none, resultThreshold := none, groupOpen := false } ∧
    (∀ l : Lane, t.lanes[l] =
      if s.lanes[l].status.owner? = some p then { status := .free, settings := .fresh } else s.lanes[l]) ∧
    (∀ k : Line, t.trips[k] =
      if freed k then .reset
      else
        { s.trips[k] with
          ownership := if s.trips[k].ownership = .owned p then .orphaned else s.trips[k].ownership
          informed := s.trips[k].informed.set p false }) ∧
    (∀ i : Slot, t.slots[i] = s.slots[i].filter fun r => decide (r.owner ≠ p)) ∧
    t.commits = s.commits.filter (fun e => decide (e.port ≠ p)) ∧
    t.groupReport = s.groupReport.set p false ∧
    t.conv.queue = s.conv.queue.filter (fun r => decide (r.owner ≠ some p)) ∧
    t.conv.inFlight = s.conv.inFlight.map (fun c =>
      if c.request.owner = some p then { c with request := { c.request with owner := none } } else c) ∧
    t.delivery[p] = { results := [], events := [], lostResults := 0, lostEvents := 0 } ∧
    (∀ q : Port, q ≠ p → t.delivery[q] =
      if s.sessions[q].state = .opened then
        let cleared := ((List.finRange 4).filter fun k => freed k && inForce s k && s.trips[k].informed[q]).foldl
          (fun d k => d.pushEvent (.tripCleared k) s.tb.seq) s.delivery[q]
        match s.agreement.proposal with
        | none => cleared
        | some pr =>
            if pr.proposer = p then cleared.pushEvent (.proposalEnded pr.id .withdrawn) s.tb.seq else cleared
      else s.delivery[q]) ∧
    t.agreement = { s.agreement with
      proposal :=
        match s.agreement.proposal with
        | none => none
        | some pr =>
            if pr.proposer = p then none
            else if pr.electorate[p] then
              some { pr with
                electorate := pr.electorate.set p false
                accepted := pr.accepted.set p false
                state := if pr.accepted.set p false = pr.electorate.set p false then .accepted else pr.state }
            else some pr } ∧
    t.due = { s.due with
      trip := Vector.ofFn fun k => s.due.trip[k] && !freed k
      agreement := s.due.agreement && s.agreement.proposal.all fun pr => decide (pr.proposer ≠ p)
      cut := s.due.cut.filter fun m => decide (m.1 ≠ p) } ∧
    t = { replied p tag .ok [] s with
      sessions := t.sessions, lanes := t.lanes, trips := t.trips, slots := t.slots, commits := t.commits
      groupReport := t.groupReport, conv := t.conv, delivery := t.delivery, agreement := t.agreement, due := t.due }

/-! ### Requests: lanes and groups -/

/-- `lane_lease`: RANGE; a FREE lane is leased fresh; an ORPHANED one is adopted with length 0, TRIPPED by the lines of
its mask in force; the requester's own lane is unchanged; another port's is HELD, with its owner. -/
def Obligations.LaneLease : Prop :=
  ∀ (p : Port) (tag lane : Nat) (s : State), Ready s p →
    (16 ≤ lane → exec (.laneLease p tag lane) s = refused p tag .range s) ∧
    ∀ l : Lane, lane = l.val →
      let owned (q : Port) (code : Byte) : Prop :=
        exec (.laneLease p tag lane) s =
          if q = p then .next (replied p tag .ok [code, 0#8] (heard p s))
          else .next (replied p tag .held [BitVec.ofNat 8 q.val] (heard p s))
      match s.lanes[l].status with
      | .free =>
          exec (.laneLease p tag lane) s = .next (replied p tag .ok [1#8, 0#8]
            { heard p s with lanes := s.lanes.set l { status := .leased p, settings := .fresh } })
      | .orphaned =>
          let forced : LineSet := Vector.ofFn fun k => s.lanes[l].settings.tripMask[k] && inForce s k
          let kept := { s.lanes[l].settings with length := 0 }
          ((∀ k : Line, forced[k] = false) →
            exec (.laneLease p tag lane) s = .next (replied p tag .ok [1#8, 1#8]
              { heard p s with lanes := s.lanes.set l { status := .leased p, settings := kept } })) ∧
          ((∃ k : Line, forced[k] = true) →
            exec (.laneLease p tag lane) s = .next (replied p tag .ok [2#8, 1#8]
              { heard p s with lanes := s.lanes.set l { status := .tripped p forced false, settings := kept } }))
      | .leased q => owned q 1#8
      | .tripped q _ _ => owned q 2#8

/-- `lane_release`: RANGE, NOT_OWNER; otherwise the requester's entries for the lane go unapplied and the lane becomes
FREE with the defaults. -/
def Obligations.LaneRelease : Prop :=
  ∀ (p : Port) (tag lane : Nat) (s : State), Ready s p →
    (16 ≤ lane → exec (.laneRelease p tag lane) s = refused p tag .range s) ∧
    ∀ l : Lane, lane = l.val →
      (s.lanes[l].status.owner? ≠ some p → exec (.laneRelease p tag lane) s = refused p tag .notOwner s) ∧
      (s.lanes[l].status.owner? = some p →
        exec (.laneRelease p tag lane) s = .next (replied p tag .ok []
          { heard p s with
            commits := s.commits.filter fun e =>
              match e.action with
              | .laneSet m _ => decide (m ≠ l) || decide (e.port ≠ p)
              | .sampleAdd _ => true
              | .sampleRemove _ => true
            lanes := s.lanes.set l { status := .free, settings := .fresh } }))

/-- `lane_set`: RANGE, NOT_OWNER, DOES_NOT_FIT against P and a proposed P′, LIST_FULL, QUOTA, in this order; otherwise one
LANE_SET entry joins the tail, held if the port's group is open, and the lane does not change (04 4.5, 05 5.2). -/
def Obligations.LaneSet : Prop :=
  ∀ (p : Port) (tag lane onAt length active safe mask : Nat) (s : State), Ready s p →
    let run := exec (.laneSet p tag lane onAt length active safe mask) s
    let fits : Prop := (onAt < s.tb.period ∧ length ≤ s.tb.period) ∧
      ∀ pr ∈ s.agreement.proposal, onAt < pr.period ∧ length ≤ pr.period
    (16 ≤ lane ∨ 2 ≤ active ∨ 3 ≤ safe ∨ 16 ≤ mask → run = refused p tag .range s) ∧
    ∀ l : Lane, lane = l.val → active < 2 → safe < 3 → mask < 16 →
      (s.lanes[l].status.owner? ≠ some p → run = refused p tag .notOwner s) ∧
      (s.lanes[l].status.owner? = some p →
        (¬ fits → run = refused p tag .doesNotFit s) ∧
        (fits → 24 ≤ s.commits.length → run = refused p tag .listFull s) ∧
        (fits → s.commits.length < 24 → 12 ≤ (s.commits.countP fun e => decide (e.port = p)) →
          run = refused p tag .quota s) ∧
        (fits → s.commits.length < 24 → (s.commits.countP fun e => decide (e.port = p)) < 12 →
          run = .next (replied p tag .ok []
            { heard p s with
              commits := s.commits ++
                [{ port := p
                   action := .laneSet l
                     { onAt := onAt, length := length
                       activeLevel := if active = 0 then .high else .low
                       safeLevel := if safe = 0 then .high else if safe = 1 then .low else .hiz
                       tripMask := Vector.ofFn fun k => mask.testBit k.val }
                   held := s.sessions[p].groupOpen, released := false }] })))

/-- The group commands: `group_begin` is BUSY with a group open and else opens one; `group_end` and `group_cancel` are
NO_GROUP without one; the end releases the port's held entries in place and sets group_report; the cancel drops them, a
slot staged by one EMPTY, a slot retired by one LIVE again. -/
def Obligations.EditGroups : Prop :=
  ∀ (p : Port) (tag : Nat) (s : State), Ready s p →
    let group (b : Bool) : Vector Session 4 :=
      s.sessions.set p { s.sessions[p] with silenceCount := some 0, groupOpen := b }
    let mine (e : Entry) : Bool := decide (e.port = p) && e.held
    (s.sessions[p].groupOpen = true → exec (.groupBegin p tag) s = refused p tag .busy s) ∧
    (s.sessions[p].groupOpen = false →
      exec (.groupBegin p tag) s = .next (replied p tag .ok [] { s with sessions := group true }) ∧
      exec (.groupEnd p tag) s = refused p tag .noGroup s ∧
      exec (.groupCancel p tag) s = refused p tag .noGroup s) ∧
    (s.sessions[p].groupOpen = true →
      exec (.groupEnd p tag) s = .next (replied p tag .ok [BitVec.ofNat 8 (s.commits.countP mine)]
        { s with
          sessions := group false
          groupReport := s.groupReport.set p true
          commits := s.commits.map fun e => if mine e then { e with held := false, released := true } else e }) ∧
      exec (.groupCancel p tag) s = .next (replied p tag .ok [BitVec.ofNat 8 (s.commits.countP mine)]
        { s with
          sessions := group false
          commits := s.commits.filter fun e => !mine e
          slots := Vector.ofFn fun i =>
            if s.commits.any fun e => mine e && decide (e.action = .sampleAdd i) then none
            else if s.commits.any fun e => mine e && decide (e.action = .sampleRemove i) then
              s.slots[i].map fun r => { r with state := .live }
            else s.slots[i] }))

/-! ### Requests: slots and records -/

/-- `sample_add`: RANGE, TABLE_FULL, DOES_NOT_FIT, LIST_FULL, QUOTA, in this order; otherwise the lowest EMPTY slot
becomes STAGED with the fields given, divisor and phase kept for DIVIDED only, and its SAMPLE_ADD joins the tail (06 6.2,
05 5.2). -/
def Obligations.SampleAdd : Prop :=
  ∀ (p : Port) (tag offset channel mode divisor phase maxWait sampleTag : Nat) (s : State), Ready s p →
    let run := exec (.sampleAdd p tag offset channel mode divisor phase maxWait sampleTag) s
    let inRange : Prop := channel < 8 ∧ mode < 3 ∧ (mode = 2 → 2 ≤ divisor ∧ divisor ≤ 255 ∧ phase < divisor)
    let fits : Prop := offset < s.tb.period ∧ ∀ pr ∈ s.agreement.proposal, offset < pr.period
    (¬ inRange → run = refused p tag .range s) ∧
    (inRange → (∀ i : Slot, s.slots[i].isSome = true) → run = refused p tag .tableFull s) ∧
    ∀ c : Channel, channel = c.val → inRange →
      ∀ i : Slot, s.slots[i] = none → (∀ j : Slot, j < i → s.slots[j].isSome = true) →
        (¬ fits → run = refused p tag .doesNotFit s) ∧
        (fits → 24 ≤ s.commits.length → run = refused p tag .listFull s) ∧
        (fits → s.commits.length < 24 → 12 ≤ (s.commits.countP fun e => decide (e.port = p)) →
          run = refused p tag .quota s) ∧
        (fits → s.commits.length < 24 → (s.commits.countP fun e => decide (e.port = p)) < 12 →
          run = .next (replied p tag .ok [BitVec.ofNat 8 i.val]
            { heard p s with
              slots := s.slots.set i (some
                { state := .staged, owner := p, tag := sampleTag, offset := offset, channel := c
                  mode := if mode = 0 then .once else if mode = 1 then .every else .divided divisor phase
                  maxWait := maxWait, lastFired := none })
              commits := s.commits ++
                [{ port := p, action := .sampleAdd i, held := s.sessions[p].groupOpen, released := false }] }))

/-- `sample_remove`: RANGE for a slot above 31 or EMPTY, NOT_OWNER for another port's; a STAGED slot is EMPTY at once,
its entry deleted; a LIVE one becomes RETIRING with a SAMPLE_REMOVE at the tail, subject to LIST_FULL and QUOTA; a
RETIRING one is unchanged. -/
def Obligations.SampleRemove : Prop :=
  ∀ (p : Port) (tag slot : Nat) (s : State), Ready s p →
    let run := exec (.sampleRemove p tag slot) s
    (32 ≤ slot → run = refused p tag .range s) ∧
    ∀ i : Slot, slot = i.val →
      (s.slots[i] = none → run = refused p tag .range s) ∧
      ∀ r ∈ s.slots[i],
        (r.owner ≠ p → run = refused p tag .notOwner s) ∧
        (r.owner = p →
          match r.state with
          | .staged =>
              run = .next (replied p tag .ok [0#8]
                { heard p s with
                  slots := s.slots.set i none
                  commits := s.commits.filter fun e => decide (e.action ≠ .sampleAdd i) })
          | .live =>
              (24 ≤ s.commits.length → run = refused p tag .listFull s) ∧
              (s.commits.length < 24 → 12 ≤ (s.commits.countP fun e => decide (e.port = p)) →
                run = refused p tag .quota s) ∧
              (s.commits.length < 24 → (s.commits.countP fun e => decide (e.port = p)) < 12 →
                run = .next (replied p tag .ok [3#8]
                  { heard p s with
                    slots := s.slots.set i (some { r with state := .retiring })
                    commits := s.commits ++
                      [{ port := p, action := .sampleRemove i, held := s.sessions[p].groupOpen,
                         released := false }] }))
          | .retiring => run = .next (replied p tag .ok [3#8] (heard p s)))

/-- `read_results` and `read_events`: RANGE for a max of 0 or above 4; otherwise the oldest records, up to max, leave the
queue and stand in the answer after count, left and lost, and the tally is not changed (08 8.5). The bytes of a record are
those of the layouts of Host Links (11.4, 11.7). -/
def Obligations.QueuesRead : Prop :=
  (∀ (p : Port) (tag max : Nat) (s : State), Ready s p →
    let d := s.delivery[p]
    (max = 0 ∨ 4 < max →
      exec (.readResults p tag max) s = refused p tag .range s ∧
      exec (.readEvents p tag max) s = refused p tag .range s) ∧
    (1 ≤ max → max ≤ 4 →
      exec (.readResults p tag max) s = .next (replied p tag .ok
        ([BitVec.ofNat 8 (min max d.results.length), BitVec.ofNat 8 (d.results.length - max),
          BitVec.ofNat 8 d.lostResults] ++ (d.results.take max).flatMap ResultRec.bytes)
        { heard p s with delivery := s.delivery.set p { d with results := d.results.drop max } }) ∧
      exec (.readEvents p tag max) s = .next (replied p tag .ok
        ([BitVec.ofNat 8 (min max d.events.length), BitVec.ofNat 8 (d.events.length - max),
          BitVec.ofNat 8 d.lostEvents] ++ (d.events.take max).flatMap EventRec.bytes)
        { heard p s with delivery := s.delivery.set p { d with events := d.events.drop max } }))) ∧
  let two (n : Nat) : List Byte := [BitVec.ofNat 8 (n / 256), BitVec.ofNat 8 n]
  let one (n : Nat) : List Byte := [BitVec.ofNat 8 n]
  let flag (b : Bool) : List Byte := if b then [1#8] else [0#8]
  (∀ r : ResultRec, r.bytes =
    one r.tag ++ one r.slot.val ++ one r.channel.val ++ two r.seq ++ two r.offset ++
      (match r.status with
        | .ok value wait => one 0 ++ two value ++ two wait
        | .missed .queueFull => one 1 ++ one 0
        | .missed .stale => one 1 ++ one 1
        | .missed .shortFrame => one 1 ++ one 2
        | .aborted => one 2) ++ one r.lostBefore) ∧
  ∀ r : EventRec,
    let record (kind : Nat) (fields : List Byte) : List Byte := one kind ++ two r.seq ++ one r.lostBefore ++ fields
    r.bytes =
      match r.event with
      | .timebaseStarted => record 0 []
      | .timebaseStopped p => record 1 (one p.val)
      | .syncLocked first => record 2 (flag first)
      | .syncLost interval => record 3 (two interval)
      | .portLapsed p n => record 4 (one p.val ++ one n)
      | .groupApplied n => record 5 (one n)
      | .trip k lanes => record 6 (one k.val ++ two (bits lanes))
      | .tripCleared k => record 7 (one k.val)
      | .lanesResumed lanes => record 8 (two (bits lanes))
      | .proposalOpened id p period source votes voter =>
          record 9 (one id ++ one p.val ++ two period ++
            (match source with
              | .free => one 0
              | .follow w => one 1 ++ one w) ++ one votes ++ flag voter)
      | .proposalEnded id (.committed seq) => record 10 (one id ++ one 0 ++ two seq)
      | .proposalEnded id .rejected => record 10 (one id ++ one 1)
      | .proposalEnded id .expired => record 10 (one id ++ one 2)
      | .proposalEnded id .withdrawn => record 10 (one id ++ one 3)

/-! ### Requests: trip lines -/

/-- `trip_claim`: RANGE; a FREE line is claimed with the reset settings; an ORPHANED one is taken over as it stands; the
requester's own is unchanged; another port's is HELD, with its owner. -/
def Obligations.TripClaim : Prop :=
  ∀ (p : Port) (tag line : Nat) (s : State), Ready s p →
    (4 ≤ line → exec (.tripClaim p tag line) s = refused p tag .range s) ∧
    ∀ k : Line, line = k.val →
      match s.trips[k].ownership with
      | .free =>
          exec (.tripClaim p tag line) s = .next (replied p tag .ok [0#8, 0#8]
            { heard p s with
              trips := s.trips.set k
                { ownership := .owned p, settings := { polarity := .activeHigh, qualify := 0, mode := .latch }
                  detect := .idle, qualifyCount := 0, informed := Vector.replicate 4 false } })
      | .orphaned =>
          exec (.tripClaim p tag line) s = .next (replied p tag .ok [BitVec.ofNat 8 s.trips[k].detect.code, 1#8]
            { heard p s with trips := s.trips.set k { s.trips[k] with ownership := .owned p } })
      | .owned q =>
          exec (.tripClaim p tag line) s =
            if q = p then .next (replied p tag .ok [BitVec.ofNat 8 s.trips[k].detect.code, 0#8] (heard p s))
            else .next (replied p tag .held [BitVec.ofNat 8 q.val] (heard p s))

/-- `trip_release`: RANGE, NOT_OWNER, IN_USE while a lane the requester does not own names the line; otherwise the line
leaves the masks and causes of the requester's lanes, each TRIPPED one it had tripped gets rearm_pending unless a line of
its remaining mask is in force or a LATCH line remains in its cause, TRIP_CLEARED goes to informed if the line was in
force, and the line is FREE. *rearmed* lists the lanes newly given the flag (log 23). -/
def Obligations.TripRelease : Prop :=
  ∀ (p : Port) (tag line : Nat) (s : State), Ready s p →
    (4 ≤ line → exec (.tripRelease p tag line) s = refused p tag .range s) ∧
    ∀ k : Line, line = k.val →
      let foreign : Prop := ∃ l : Lane, s.lanes[l].status.owner? ≠ some p ∧ s.lanes[l].settings.tripMask[k] = true
      (s.trips[k].ownership ≠ .owned p → exec (.tripRelease p tag line) s = refused p tag .notOwner s) ∧
      (s.trips[k].ownership = .owned p → foreign → exec (.tripRelease p tag line) s = refused p tag .inUse s) ∧
      (s.trips[k].ownership = .owned p → ¬ foreign → Gives (exec (.tripRelease p tag line) s) fun t =>
        let granted (l : Lane) : Bool :=
          decide (s.lanes[l].status.owner? = some p) && s.lanes[l].status.cause[k] &&
            decide (∀ j : Line, j ≠ k → s.lanes[l].settings.tripMask[j] = true → inForce s j = false) &&
            decide (∀ j : Line, j ≠ k → s.lanes[l].status.cause[j] = true → s.trips[j].settings.mode = .follow)
        (∀ l : Lane, t.lanes[l] =
          if s.lanes[l].status.owner? = some p then
            { settings := { s.lanes[l].settings with tripMask := s.lanes[l].settings.tripMask.set k false }
              status :=
                match s.lanes[l].status with
                | .tripped q cause rearm => .tripped q (cause.set k false) (rearm || granted l)
                | .free => .free
                | .leased q => .leased q
                | .orphaned => .orphaned }
          else s.lanes[l]) ∧
        t.trips = s.trips.set k .reset ∧
        (∀ q : Port, t.delivery[q] =
          if inForce s k = true ∧ s.trips[k].informed[q] = true ∧ s.sessions[q].state = .opened then
            s.delivery[q].pushEvent (.tripCleared k) s.tb.seq
          else s.delivery[q]) ∧
        t.links = (replied p tag .ok
          (laneSetBytes (Vector.ofFn fun l => granted l && !s.lanes[l].status.rearm)) s).links ∧
        t = { heard p s with lanes := t.lanes, trips := t.trips, delivery := t.delivery, links := t.links,
                             due := { s.due with trip := s.due.trip.set k false } })

/-- `trip_set`: RANGE, NOT_OWNER; otherwise the three settings are replaced, a qualification starts again from IDLE, a
line in force is ASSERTED, and this tick's sample no longer counts (log 17); informed and the lanes stay. -/
def Obligations.TripSet : Prop :=
  ∀ (p : Port) (tag line polarity qualify mode : Nat) (s : State), Ready s p →
    (4 ≤ line ∨ 2 ≤ polarity ∨ 2 ≤ mode →
      exec (.tripSet p tag line polarity qualify mode) s = refused p tag .range s) ∧
    ∀ k : Line, line = k.val → polarity < 2 → mode < 2 →
      let after : Detect := if inForce s k then .asserted else .idle
      (s.trips[k].ownership ≠ .owned p →
        exec (.tripSet p tag line polarity qualify mode) s = refused p tag .notOwner s) ∧
      (s.trips[k].ownership = .owned p →
        exec (.tripSet p tag line polarity qualify mode) s =
          .next (replied p tag .ok [if inForce s k then 2#8 else 0#8]
            { heard p s with
              trips := s.trips.set k
                { s.trips[k] with
                  settings :=
                    { polarity := if polarity = 0 then .activeHigh else .activeLow
                      qualify := qualify
                      mode := if mode = 0 then .latch else .follow }
                  detect := after
                  qualifyCount := 0 }
              due := { s.due with trip := s.due.trip.set k false } }))

/-- `trip_rearm`: RANGE for the empty set, NOT_OWNER, STILL_ASSERTED with the lines in force named by the set's TRIPPED
lanes; otherwise every TRIPPED lane of the set holds rearm_pending, and the answer lists them. -/
def Obligations.TripRearm : Prop :=
  ∀ (p : Port) (tag lanes : Nat) (s : State), Ready s p → lanes < 65536 →
    let run := exec (.tripRearm p tag lanes) s
    let tripped (l : Lane) : Bool := lanes.testBit l.val &&
      (match s.lanes[l].status with
        | .tripped _ _ _ => true
        | _ => false)
    let forced : LineSet := Vector.ofFn fun k =>
      inForce s k && decide (∃ l : Lane, tripped l = true ∧ s.lanes[l].settings.tripMask[k] = true)
    let owned : Prop := ∀ l : Lane, lanes.testBit l.val = true → s.lanes[l].status.owner? = some p
    (lanes = 0 → run = refused p tag .range s) ∧
    (lanes ≠ 0 →
      (¬ owned → run = refused p tag .notOwner s) ∧
      (owned → (∃ k : Line, forced[k] = true) →
        run = .next (replied p tag .stillAsserted [setByte forced] (heard p s))) ∧
      (owned → (∀ k : Line, forced[k] = false) →
        run = .next (replied p tag .ok (laneSetBytes (Vector.ofFn tripped))
          { heard p s with
            lanes := Vector.ofFn fun l =>
              match s.lanes[l].status with
              | .tripped q cause rearm =>
                  { s.lanes[l] with status := .tripped q cause (rearm || lanes.testBit l.val) }
              | _ => s.lanes[l] })))

/-! ### Requests: agreement -/

/-- `propose`: RANGE, STOPPED, BUSY, DOES_NOT_FIT, in this order; otherwise the proposal opens with the next id, the
bound ports and the requester as electorate, ACCEPTED at once if that is the requester alone, and PROPOSAL_OPENED goes to
every OPEN port, *voter* by the electorate (10 10.2, 10.5). -/
def Obligations.Propose : Prop :=
  ∀ (p : Port) (tag period source window votes : Nat) (s : State), Ready s p →
    let run := exec (.propose p tag period source window votes) s
    let inRange : Prop := (64 ≤ period ∧ period ≤ 65535) ∧ source < 2 ∧ (1 ≤ votes ∧ votes ≤ 255) ∧
      (source = 1 → 1 ≤ window ∧ window ≤ 255 ∧ window ≤ period / 8)
    (¬ inRange → run = refused p tag .range s) ∧
    (inRange → s.tb.state = .stopped → run = refused p tag .stopped s) ∧
    (inRange → running s = true → s.agreement.proposal.isSome = true → run = refused p tag .busy s) ∧
    (inRange → running s = true → s.agreement.proposal = none →
      (¬ FitsPeriod s period → run = refused p tag .doesNotFit s) ∧
      (FitsPeriod s period →
        ∀ electorate : PortSet, (∀ q : Port, electorate[q] = true ↔ Bound s q ∨ q = p) →
          let alone : Bool := decide (electorate = (Vector.replicate 4 false).set p true)
          let pr : Proposal :=
            { id := s.agreement.nextId, proposer := p, period := period
              source := if source = 0 then .free else .follow window
              voteWindow := votes, framesLeft := votes, electorate := electorate
              accepted := (Vector.replicate 4 false).set p true
              state := if alone then .accepted else .opened }
          run = .next (replied p tag .ok
            [BitVec.ofNat 8 pr.id, setByte electorate, if alone then 1#8 else 0#8]
            (emit (fun q => some (.proposalOpened pr.id p period pr.source votes electorate[q]))
              { heard p s with
                agreement :=
                  { proposal := some pr
                    nextId := if s.agreement.nextId = 255 then 1 else s.agreement.nextId + 1 } }))))

/-- `vote`: RANGE, NO_PROPOSAL, NOT_ELIGIBLE, ALREADY_VOTED, in this order; ACCEPT adds the requester and makes the
proposal ACCEPTED when that completes the electorate; REJECT ends it. `withdraw`: NO_PROPOSAL, NOT_OWNER; otherwise the
proposal ends WITHDRAWN. An end makes the record absent and sends PROPOSAL_ENDED to every OPEN port. -/
def Obligations.VoteAndWithdraw : Prop :=
  ∀ (p : Port) (tag id choice : Nat) (s : State), Ready s p →
    let vote := exec (.vote p tag id choice) s
    let withdraw := exec (.withdraw p tag id) s
    let ends (pr : Proposal) (outcome : ProposalOutcome) : Host.Outcome State Fault Refusal :=
      .next (replied p tag .ok []
        (emitAll (.proposalEnded pr.id outcome)
          { heard p s with
            agreement := { s.agreement with proposal := none }
            due := { s.due with agreement := false } }))
    (2 ≤ choice → vote = refused p tag .range s) ∧
    ((∀ pr ∈ s.agreement.proposal, pr.id ≠ id) →
      (choice < 2 → vote = refused p tag .noProposal s) ∧ withdraw = refused p tag .noProposal s) ∧
    ∀ pr ∈ s.agreement.proposal, pr.id = id →
      (choice < 2 →
        (pr.electorate[p] = false → vote = refused p tag .notEligible s) ∧
        (pr.electorate[p] = true → pr.accepted[p] = true → vote = refused p tag .alreadyVoted s) ∧
        (pr.electorate[p] = true → pr.accepted[p] = false →
          (choice = 1 → vote = ends pr .rejected) ∧
          (choice = 0 →
            let accepted := pr.accepted.set p true
            let after : ProposalState := if accepted = pr.electorate then .accepted else pr.state
            vote = .next (replied p tag .ok [if after = .accepted then 1#8 else 0#8]
              { heard p s with
                agreement := { s.agreement with
                  proposal := some { pr with accepted := accepted, state := after } } })))) ∧
      (pr.proposer ≠ p → withdraw = refused p tag .notOwner s) ∧
      (pr.proposer = p → withdraw = ends pr .withdrawn)

/-! ### What every step keeps -/

/-- Every step keeps the queues, tallies, commit list and receive buffers within their bounds. -/
def Obligations.StepKeepsBounds : Prop := ∀ s t : State, Sound s → step s = .next t → Bounded t

/-- Every step keeps the timebase and the sync monitor in range and in agreement with the source. -/
def Obligations.StepKeepsFrame : Prop := ∀ s t : State, Sound s → step s = .next t → FrameSound t

/-- Every step keeps: the session records are sound, a port whose session is not OPEN holds nothing in any block, and
a waiting SYNC_LOCKED waits only in LOCKED and while a lapse is due (that clause is the model's choice, log 29). -/
def Obligations.StepKeepsSessions : Prop := ∀ s t : State, Sound s → step s = .next t → SessionsSound t

/-- Every step keeps: no LEASED lane names a line in force, every line in force in a TRIPPED lane's mask stands in its
cause, and rearm_pending stands only when there is none. -/
def Obligations.StepKeepsTripSafety : Prop := ∀ s t : State, Sound s → step s = .next t → TripsSound t

/-- Every step keeps: each entry's target is its port's own, in the state the entry expects. -/
def Obligations.StepKeepsEntries : Prop := ∀ s t : State, Sound s → step s = .next t → EntriesSound t

/-- Every step keeps: every lane, slot and entry fits the period in force and, while a proposal exists, the proposed
one. -/
def Obligations.StepKeepsFit : Prop := ∀ s t : State, Sound s → step s = .next t → FitSound t

/-- Every step keeps: a proposal exists only while the timebase is running, and its sets and state agree. -/
def Obligations.StepKeepsAgreement : Prop := ∀ s t : State, Sound s → step s = .next t → AgreementSound t

/-- Every step keeps: an IDLE converter has an empty queue, and no request can wait for more than 320 ticks. -/
def Obligations.StepKeepsConverter : Prop := ∀ s t : State, Sound s → step s = .next t → ConverterSound t

/-! ### Whole-machine rules -/

/-- Only a part reset and a `tb_stop`, as its row or carried by a transaction, stop a running timebase (01 1.2). -/
def Obligations.OnlyAStopStops : Prop :=
  ∀ (i : Instr) (s t : State), exec i s = .next t → running s = true → running t = false →
    i = .partReset ∨ (∃ p tag, i = .tbStop p tag) ∨
      ∃ p tag, i = .transactionEnd p ∧ judgeBuffer s.links[p].rx = .taken tag .tbStop

/-- Only a part reset changes P, the source or W otherwise than to what the proposal standing before names (01 1.2,
1.5). -/
def Obligations.OnlyTheProposalChangesThePeriod : Prop :=
  ∀ (i : Instr) (s t : State), exec i s = .next t → i ≠ .partReset →
    (t.tb.period = s.tb.period ∧ t.tb.source = s.tb.source ∧ t.tb.window = s.tb.window) ∨
      ∃ pr ∈ s.agreement.proposal, t.tb.period = pr.period ∧
        match pr.source with
        | .free => t.tb.source = .free ∧ t.tb.window = s.tb.window
        | .follow w => t.tb.source = .follow ∧ t.tb.window = w

/-- A port's link, with its held response, is changed by a part reset and by that port's own commands only (11, 11.2). -/
def Obligations.LinksAreIndependent : Prop :=
  ∀ (i : Instr) (p : Port) (s t : State), exec i s = .next t → i ≠ .partReset → i ≠ .transactionBegin p →
    (∀ b, i ≠ .byteClocked p b) → i ≠ .transactionEnd p → (∀ r tag, i ≠ Request.toInstr p tag r) →
      t.links[p] = s.links[p]
end

