-- ==== Sys2Proof/Laws/State.lean ====
section
/-! SUPPORT. The fields that the record updates of the model leave alone, one lemma per field and update; and what is
read at an index of a table or set that was built from a function. -/

namespace Sys2Proof.Machine

/-! ### Tables and sets -/

section Tables

variable {α : Type} {n : Nat}

@[simp] theorem tabulate_getElem (f : Fin n → α) (i : Nat) (h : i < n) : (tabulate f)[i] = f ⟨i, h⟩ := by
  simp [tabulate]

@[simp] theorem setOf_getElem (f : Fin n → Bool) (i : Nat) (h : i < n) : (setOf f)[i] = f ⟨i, h⟩ := by
  simp [setOf]

theorem update_getElem (v : Vector α n) (i : Fin n) (f : α → α) (j : Nat) (h : j < n) :
    (update v i f)[j] = if i.val = j then f v[i] else v[j] := by
  simp [update, Vector.getElem_set]

@[simp] theorem update_getElem_self (v : Vector α n) (i : Fin n) (f : α → α) : (update v i f)[i.val] = f v[i] := by
  simp [update]

theorem update_getElem_of_ne (v : Vector α n) {i j : Fin n} (f : α → α) (h : j ≠ i) :
    (update v i f)[j.val] = v[j.val] := by
  have : i.val ≠ j.val := fun e => h (Fin.ext e.symm)
  simp [update_getElem, this]

@[simp] theorem single_getElem (i : Fin n) (j : Nat) (h : j < n) : (single i)[j] = decide (⟨j, h⟩ = i) := by
  simp [single]

@[simp] theorem insertId_getElem (s : IdSet n) (i : Fin n) (j : Nat) (h : j < n) :
    (insertId s i)[j] = (s[j] || decide (⟨j, h⟩ = i)) := by
  simp [insertId]

@[simp] theorem eraseId_getElem (s : IdSet n) (i : Fin n) (j : Nat) (h : j < n) :
    (eraseId s i)[j] = (s[j] && !decide (⟨j, h⟩ = i)) := by
  simp [eraseId]

@[simp] theorem inter_getElem (s t : IdSet n) (j : Nat) (h : j < n) : (inter s t)[j] = (s[j] && t[j]) := by
  simp [inter]

@[simp] theorem union_getElem (s t : IdSet n) (j : Nat) (h : j < n) : (union s t)[j] = (s[j] || t[j]) := by
  simp [union]

@[simp] theorem minus_getElem (s t : IdSet n) (j : Nat) (h : j < n) : (minus s t)[j] = (s[j] && !t[j]) := by
  simp [minus]

@[simp] theorem noneId_getElem (j : Nat) (h : j < n) : (IdSet.none n)[j] = false := by simp [IdSet.none]

@[simp] theorem someId_eq_true (f : Fin n → Bool) : someId f = true ↔ ∃ i, f i = true := by simp [someId]

@[simp] theorem everyId_eq_true (f : Fin n → Bool) : everyId f = true ↔ ∀ i, f i = true := by simp [everyId]

@[simp] theorem nonempty_eq_true (s : IdSet n) : nonempty s = true ↔ ∃ i : Fin n, s[i] = true := by simp [nonempty]

@[simp] theorem mem_members (s : IdSet n) (i : Fin n) : i ∈ members s ↔ s[i] = true := by simp [members]

/-- Two tables are equal when they agree at every index. -/
theorem table_ext {v w : Vector α n} (h : ∀ i : Fin n, v[i] = w[i]) : v = w := by
  apply Vector.ext
  intro i hi
  exact h ⟨i, hi⟩

end Tables

/-! ### Fields left alone -/

/-! `hear` writes sessions. -/

section

variable (p : Port) (s : State)

@[simp] theorem hear_inReset : (hear p s).inReset = s.inReset := rfl
@[simp] theorem hear_tickStamp : (hear p s).tickStamp = s.tickStamp := rfl
@[simp] theorem hear_tb : (hear p s).tb = s.tb := rfl
@[simp] theorem hear_sync : (hear p s).sync = s.sync := rfl
@[simp] theorem hear_lanes : (hear p s).lanes = s.lanes := rfl
@[simp] theorem hear_commits : (hear p s).commits = s.commits := rfl
@[simp] theorem hear_groupReport : (hear p s).groupReport = s.groupReport := rfl
@[simp] theorem hear_slots : (hear p s).slots = s.slots := rfl
@[simp] theorem hear_conv : (hear p s).conv = s.conv := rfl
@[simp] theorem hear_delivery : (hear p s).delivery = s.delivery := rfl
@[simp] theorem hear_trips : (hear p s).trips = s.trips := rfl
@[simp] theorem hear_agreement : (hear p s).agreement = s.agreement := rfl
@[simp] theorem hear_links : (hear p s).links = s.links := rfl
@[simp] theorem hear_pins : (hear p s).pins = s.pins := rfl
@[simp] theorem hear_due : (hear p s).due = s.due := rfl
@[simp] theorem hear_pending : (hear p s).pending = s.pending := rfl

end

/-! `hold` writes links. -/

section

variable (p : Port) (r : Response) (s : State)

@[simp] theorem hold_inReset : (hold p r s).inReset = s.inReset := rfl
@[simp] theorem hold_tickStamp : (hold p r s).tickStamp = s.tickStamp := rfl
@[simp] theorem hold_tb : (hold p r s).tb = s.tb := rfl
@[simp] theorem hold_sync : (hold p r s).sync = s.sync := rfl
@[simp] theorem hold_sessions : (hold p r s).sessions = s.sessions := rfl
@[simp] theorem hold_lanes : (hold p r s).lanes = s.lanes := rfl
@[simp] theorem hold_commits : (hold p r s).commits = s.commits := rfl
@[simp] theorem hold_groupReport : (hold p r s).groupReport = s.groupReport := rfl
@[simp] theorem hold_slots : (hold p r s).slots = s.slots := rfl
@[simp] theorem hold_conv : (hold p r s).conv = s.conv := rfl
@[simp] theorem hold_delivery : (hold p r s).delivery = s.delivery := rfl
@[simp] theorem hold_trips : (hold p r s).trips = s.trips := rfl
@[simp] theorem hold_agreement : (hold p r s).agreement = s.agreement := rfl
@[simp] theorem hold_pins : (hold p r s).pins = s.pins := rfl
@[simp] theorem hold_due : (hold p r s).due = s.due := rfl
@[simp] theorem hold_pending : (hold p r s).pending = s.pending := rfl

end

/-! `emit` writes delivery. -/

section

variable (f : Port → Option Event) (s : State)

@[simp] theorem emit_inReset : (emit f s).inReset = s.inReset := rfl
@[simp] theorem emit_tickStamp : (emit f s).tickStamp = s.tickStamp := rfl
@[simp] theorem emit_tb : (emit f s).tb = s.tb := rfl
@[simp] theorem emit_sync : (emit f s).sync = s.sync := rfl
@[simp] theorem emit_sessions : (emit f s).sessions = s.sessions := rfl
@[simp] theorem emit_lanes : (emit f s).lanes = s.lanes := rfl
@[simp] theorem emit_commits : (emit f s).commits = s.commits := rfl
@[simp] theorem emit_groupReport : (emit f s).groupReport = s.groupReport := rfl
@[simp] theorem emit_slots : (emit f s).slots = s.slots := rfl
@[simp] theorem emit_conv : (emit f s).conv = s.conv := rfl
@[simp] theorem emit_trips : (emit f s).trips = s.trips := rfl
@[simp] theorem emit_agreement : (emit f s).agreement = s.agreement := rfl
@[simp] theorem emit_links : (emit f s).links = s.links := rfl
@[simp] theorem emit_pins : (emit f s).pins = s.pins := rfl
@[simp] theorem emit_due : (emit f s).due = s.due := rfl
@[simp] theorem emit_pending : (emit f s).pending = s.pending := rfl

end

/-! `emitAll` writes delivery. -/

section

variable (e : Event) (s : State)

@[simp] theorem emitAll_inReset : (emitAll e s).inReset = s.inReset := rfl
@[simp] theorem emitAll_tickStamp : (emitAll e s).tickStamp = s.tickStamp := rfl
@[simp] theorem emitAll_tb : (emitAll e s).tb = s.tb := rfl
@[simp] theorem emitAll_sync : (emitAll e s).sync = s.sync := rfl
@[simp] theorem emitAll_sessions : (emitAll e s).sessions = s.sessions := rfl
@[simp] theorem emitAll_lanes : (emitAll e s).lanes = s.lanes := rfl
@[simp] theorem emitAll_commits : (emitAll e s).commits = s.commits := rfl
@[simp] theorem emitAll_groupReport : (emitAll e s).groupReport = s.groupReport := rfl
@[simp] theorem emitAll_slots : (emitAll e s).slots = s.slots := rfl
@[simp] theorem emitAll_conv : (emitAll e s).conv = s.conv := rfl
@[simp] theorem emitAll_trips : (emitAll e s).trips = s.trips := rfl
@[simp] theorem emitAll_agreement : (emitAll e s).agreement = s.agreement := rfl
@[simp] theorem emitAll_links : (emitAll e s).links = s.links := rfl
@[simp] theorem emitAll_pins : (emitAll e s).pins = s.pins := rfl
@[simp] theorem emitAll_due : (emitAll e s).due = s.due := rfl
@[simp] theorem emitAll_pending : (emitAll e s).pending = s.pending := rfl

end

/-! `emitTo` writes delivery. -/

section

variable (p : Port) (e : Event) (s : State)

@[simp] theorem emitTo_inReset : (emitTo p e s).inReset = s.inReset := rfl
@[simp] theorem emitTo_tickStamp : (emitTo p e s).tickStamp = s.tickStamp := rfl
@[simp] theorem emitTo_tb : (emitTo p e s).tb = s.tb := rfl
@[simp] theorem emitTo_sync : (emitTo p e s).sync = s.sync := rfl
@[simp] theorem emitTo_sessions : (emitTo p e s).sessions = s.sessions := rfl
@[simp] theorem emitTo_lanes : (emitTo p e s).lanes = s.lanes := rfl
@[simp] theorem emitTo_commits : (emitTo p e s).commits = s.commits := rfl
@[simp] theorem emitTo_groupReport : (emitTo p e s).groupReport = s.groupReport := rfl
@[simp] theorem emitTo_slots : (emitTo p e s).slots = s.slots := rfl
@[simp] theorem emitTo_conv : (emitTo p e s).conv = s.conv := rfl
@[simp] theorem emitTo_trips : (emitTo p e s).trips = s.trips := rfl
@[simp] theorem emitTo_agreement : (emitTo p e s).agreement = s.agreement := rfl
@[simp] theorem emitTo_links : (emitTo p e s).links = s.links := rfl
@[simp] theorem emitTo_pins : (emitTo p e s).pins = s.pins := rfl
@[simp] theorem emitTo_due : (emitTo p e s).due = s.due := rfl
@[simp] theorem emitTo_pending : (emitTo p e s).pending = s.pending := rfl

end

/-! `append` writes commits. -/

section

variable (p : Port) (a : EntryAction) (s : State)

@[simp] theorem append_inReset : (append p a s).inReset = s.inReset := rfl
@[simp] theorem append_tickStamp : (append p a s).tickStamp = s.tickStamp := rfl
@[simp] theorem append_tb : (append p a s).tb = s.tb := rfl
@[simp] theorem append_sync : (append p a s).sync = s.sync := rfl
@[simp] theorem append_sessions : (append p a s).sessions = s.sessions := rfl
@[simp] theorem append_lanes : (append p a s).lanes = s.lanes := rfl
@[simp] theorem append_groupReport : (append p a s).groupReport = s.groupReport := rfl
@[simp] theorem append_slots : (append p a s).slots = s.slots := rfl
@[simp] theorem append_conv : (append p a s).conv = s.conv := rfl
@[simp] theorem append_delivery : (append p a s).delivery = s.delivery := rfl
@[simp] theorem append_trips : (append p a s).trips = s.trips := rfl
@[simp] theorem append_agreement : (append p a s).agreement = s.agreement := rfl
@[simp] theorem append_links : (append p a s).links = s.links := rfl
@[simp] theorem append_pins : (append p a s).pins = s.pins := rfl
@[simp] theorem append_due : (append p a s).due = s.due := rfl
@[simp] theorem append_pending : (append p a s).pending = s.pending := rfl

end

/-! `sampleTaken` writes due. -/

section

variable (t : Line) (s : State)

@[simp] theorem sampleTaken_inReset : (sampleTaken t s).inReset = s.inReset := rfl
@[simp] theorem sampleTaken_tickStamp : (sampleTaken t s).tickStamp = s.tickStamp := rfl
@[simp] theorem sampleTaken_tb : (sampleTaken t s).tb = s.tb := rfl
@[simp] theorem sampleTaken_sync : (sampleTaken t s).sync = s.sync := rfl
@[simp] theorem sampleTaken_sessions : (sampleTaken t s).sessions = s.sessions := rfl
@[simp] theorem sampleTaken_lanes : (sampleTaken t s).lanes = s.lanes := rfl
@[simp] theorem sampleTaken_commits : (sampleTaken t s).commits = s.commits := rfl
@[simp] theorem sampleTaken_groupReport : (sampleTaken t s).groupReport = s.groupReport := rfl
@[simp] theorem sampleTaken_slots : (sampleTaken t s).slots = s.slots := rfl
@[simp] theorem sampleTaken_conv : (sampleTaken t s).conv = s.conv := rfl
@[simp] theorem sampleTaken_delivery : (sampleTaken t s).delivery = s.delivery := rfl
@[simp] theorem sampleTaken_trips : (sampleTaken t s).trips = s.trips := rfl
@[simp] theorem sampleTaken_agreement : (sampleTaken t s).agreement = s.agreement := rfl
@[simp] theorem sampleTaken_links : (sampleTaken t s).links = s.links := rfl
@[simp] theorem sampleTaken_pins : (sampleTaken t s).pins = s.pins := rfl
@[simp] theorem sampleTaken_pending : (sampleTaken t s).pending = s.pending := rfl

end

/-! `closeAgreement` writes due. -/

section

variable (s : State)

@[simp] theorem closeAgreement_inReset : (closeAgreement s).inReset = s.inReset := rfl
@[simp] theorem closeAgreement_tickStamp : (closeAgreement s).tickStamp = s.tickStamp := rfl
@[simp] theorem closeAgreement_tb : (closeAgreement s).tb = s.tb := rfl
@[simp] theorem closeAgreement_sync : (closeAgreement s).sync = s.sync := rfl
@[simp] theorem closeAgreement_sessions : (closeAgreement s).sessions = s.sessions := rfl
@[simp] theorem closeAgreement_lanes : (closeAgreement s).lanes = s.lanes := rfl
@[simp] theorem closeAgreement_commits : (closeAgreement s).commits = s.commits := rfl
@[simp] theorem closeAgreement_groupReport : (closeAgreement s).groupReport = s.groupReport := rfl
@[simp] theorem closeAgreement_slots : (closeAgreement s).slots = s.slots := rfl
@[simp] theorem closeAgreement_conv : (closeAgreement s).conv = s.conv := rfl
@[simp] theorem closeAgreement_delivery : (closeAgreement s).delivery = s.delivery := rfl
@[simp] theorem closeAgreement_trips : (closeAgreement s).trips = s.trips := rfl
@[simp] theorem closeAgreement_agreement : (closeAgreement s).agreement = s.agreement := rfl
@[simp] theorem closeAgreement_links : (closeAgreement s).links = s.links := rfl
@[simp] theorem closeAgreement_pins : (closeAgreement s).pins = s.pins := rfl
@[simp] theorem closeAgreement_pending : (closeAgreement s).pending = s.pending := rfl

end

/-! `endProposal` writes delivery, agreement, due. -/

section

variable (n : Nat) (o : ProposalOutcome) (s : State)

@[simp] theorem endProposal_inReset : (endProposal n o s).inReset = s.inReset := rfl
@[simp] theorem endProposal_tickStamp : (endProposal n o s).tickStamp = s.tickStamp := rfl
@[simp] theorem endProposal_tb : (endProposal n o s).tb = s.tb := rfl
@[simp] theorem endProposal_sync : (endProposal n o s).sync = s.sync := rfl
@[simp] theorem endProposal_sessions : (endProposal n o s).sessions = s.sessions := rfl
@[simp] theorem endProposal_lanes : (endProposal n o s).lanes = s.lanes := rfl
@[simp] theorem endProposal_commits : (endProposal n o s).commits = s.commits := rfl
@[simp] theorem endProposal_groupReport : (endProposal n o s).groupReport = s.groupReport := rfl
@[simp] theorem endProposal_slots : (endProposal n o s).slots = s.slots := rfl
@[simp] theorem endProposal_conv : (endProposal n o s).conv = s.conv := rfl
@[simp] theorem endProposal_trips : (endProposal n o s).trips = s.trips := rfl
@[simp] theorem endProposal_links : (endProposal n o s).links = s.links := rfl
@[simp] theorem endProposal_pins : (endProposal n o s).pins = s.pins := rfl
@[simp] theorem endProposal_pending : (endProposal n o s).pending = s.pending := rfl

end

/-! `makeBoundary` writes tb, sync, sessions, agreement, due. -/

section

variable (k : BoundaryKind) (s : State)

@[simp] theorem makeBoundary_inReset : (makeBoundary k s).inReset = s.inReset := rfl
@[simp] theorem makeBoundary_tickStamp : (makeBoundary k s).tickStamp = s.tickStamp := rfl
@[simp] theorem makeBoundary_lanes : (makeBoundary k s).lanes = s.lanes := rfl
@[simp] theorem makeBoundary_commits : (makeBoundary k s).commits = s.commits := rfl
@[simp] theorem makeBoundary_groupReport : (makeBoundary k s).groupReport = s.groupReport := rfl
@[simp] theorem makeBoundary_slots : (makeBoundary k s).slots = s.slots := rfl
@[simp] theorem makeBoundary_conv : (makeBoundary k s).conv = s.conv := rfl
@[simp] theorem makeBoundary_delivery : (makeBoundary k s).delivery = s.delivery := rfl
@[simp] theorem makeBoundary_trips : (makeBoundary k s).trips = s.trips := rfl
@[simp] theorem makeBoundary_links : (makeBoundary k s).links = s.links := rfl
@[simp] theorem makeBoundary_pins : (makeBoundary k s).pins = s.pins := rfl
@[simp] theorem makeBoundary_pending : (makeBoundary k s).pending = s.pending := rfl

end

/-! `resumeLanes` writes delivery, lanes, due. -/

section

variable (s : State)

@[simp] theorem resumeLanes_inReset : (resumeLanes s).inReset = s.inReset := rfl
@[simp] theorem resumeLanes_tickStamp : (resumeLanes s).tickStamp = s.tickStamp := rfl
@[simp] theorem resumeLanes_tb : (resumeLanes s).tb = s.tb := rfl
@[simp] theorem resumeLanes_sync : (resumeLanes s).sync = s.sync := rfl
@[simp] theorem resumeLanes_sessions : (resumeLanes s).sessions = s.sessions := rfl
@[simp] theorem resumeLanes_commits : (resumeLanes s).commits = s.commits := rfl
@[simp] theorem resumeLanes_groupReport : (resumeLanes s).groupReport = s.groupReport := rfl
@[simp] theorem resumeLanes_slots : (resumeLanes s).slots = s.slots := rfl
@[simp] theorem resumeLanes_conv : (resumeLanes s).conv = s.conv := rfl
@[simp] theorem resumeLanes_trips : (resumeLanes s).trips = s.trips := rfl
@[simp] theorem resumeLanes_agreement : (resumeLanes s).agreement = s.agreement := rfl
@[simp] theorem resumeLanes_links : (resumeLanes s).links = s.links := rfl
@[simp] theorem resumeLanes_pins : (resumeLanes s).pins = s.pins := rfl
@[simp] theorem resumeLanes_pending : (resumeLanes s).pending = s.pending := rfl

end

/-! `reportGroups` writes delivery, groupReport. -/

section

variable (es : List Entry) (s : State)

@[simp] theorem reportGroups_inReset : (reportGroups es s).inReset = s.inReset := rfl
@[simp] theorem reportGroups_tickStamp : (reportGroups es s).tickStamp = s.tickStamp := rfl
@[simp] theorem reportGroups_tb : (reportGroups es s).tb = s.tb := rfl
@[simp] theorem reportGroups_sync : (reportGroups es s).sync = s.sync := rfl
@[simp] theorem reportGroups_sessions : (reportGroups es s).sessions = s.sessions := rfl
@[simp] theorem reportGroups_lanes : (reportGroups es s).lanes = s.lanes := rfl
@[simp] theorem reportGroups_commits : (reportGroups es s).commits = s.commits := rfl
@[simp] theorem reportGroups_slots : (reportGroups es s).slots = s.slots := rfl
@[simp] theorem reportGroups_conv : (reportGroups es s).conv = s.conv := rfl
@[simp] theorem reportGroups_trips : (reportGroups es s).trips = s.trips := rfl
@[simp] theorem reportGroups_agreement : (reportGroups es s).agreement = s.agreement := rfl
@[simp] theorem reportGroups_links : (reportGroups es s).links = s.links := rfl
@[simp] theorem reportGroups_pins : (reportGroups es s).pins = s.pins := rfl
@[simp] theorem reportGroups_due : (reportGroups es s).due = s.due := rfl
@[simp] theorem reportGroups_pending : (reportGroups es s).pending = s.pending := rfl

end

/-! `purge` writes sessions, lanes, trips, due, slots, commits, groupReport, conv, delivery. -/

section

variable (k : EndKind) (p : Port) (s : State)

@[simp] theorem purge_inReset : (purge k p s).inReset = s.inReset := rfl
@[simp] theorem purge_tickStamp : (purge k p s).tickStamp = s.tickStamp := rfl
@[simp] theorem purge_tb : (purge k p s).tb = s.tb := rfl
@[simp] theorem purge_sync : (purge k p s).sync = s.sync := rfl
@[simp] theorem purge_agreement : (purge k p s).agreement = s.agreement := rfl
@[simp] theorem purge_links : (purge k p s).links = s.links := rfl
@[simp] theorem purge_pins : (purge k p s).pins = s.pins := rfl
@[simp] theorem purge_pending : (purge k p s).pending = s.pending := rfl

end

/-! `assertLine` writes delivery, lanes, trips. -/

section

variable (t : Line) (s : State)

@[simp] theorem assertLine_inReset : (assertLine t s).inReset = s.inReset := rfl
@[simp] theorem assertLine_tickStamp : (assertLine t s).tickStamp = s.tickStamp := rfl
@[simp] theorem assertLine_tb : (assertLine t s).tb = s.tb := rfl
@[simp] theorem assertLine_sync : (assertLine t s).sync = s.sync := rfl
@[simp] theorem assertLine_sessions : (assertLine t s).sessions = s.sessions := rfl
@[simp] theorem assertLine_commits : (assertLine t s).commits = s.commits := rfl
@[simp] theorem assertLine_groupReport : (assertLine t s).groupReport = s.groupReport := rfl
@[simp] theorem assertLine_slots : (assertLine t s).slots = s.slots := rfl
@[simp] theorem assertLine_conv : (assertLine t s).conv = s.conv := rfl
@[simp] theorem assertLine_agreement : (assertLine t s).agreement = s.agreement := rfl
@[simp] theorem assertLine_links : (assertLine t s).links = s.links := rfl
@[simp] theorem assertLine_pins : (assertLine t s).pins = s.pins := rfl
@[simp] theorem assertLine_due : (assertLine t s).due = s.due := rfl
@[simp] theorem assertLine_pending : (assertLine t s).pending = s.pending := rfl

end

/-! `clearTrip` writes delivery. -/

section

variable (t : Line) (s : State)

@[simp] theorem clearTrip_inReset : (clearTrip t s).inReset = s.inReset := rfl
@[simp] theorem clearTrip_tickStamp : (clearTrip t s).tickStamp = s.tickStamp := rfl
@[simp] theorem clearTrip_tb : (clearTrip t s).tb = s.tb := rfl
@[simp] theorem clearTrip_sync : (clearTrip t s).sync = s.sync := rfl
@[simp] theorem clearTrip_sessions : (clearTrip t s).sessions = s.sessions := rfl
@[simp] theorem clearTrip_lanes : (clearTrip t s).lanes = s.lanes := rfl
@[simp] theorem clearTrip_commits : (clearTrip t s).commits = s.commits := rfl
@[simp] theorem clearTrip_groupReport : (clearTrip t s).groupReport = s.groupReport := rfl
@[simp] theorem clearTrip_slots : (clearTrip t s).slots = s.slots := rfl
@[simp] theorem clearTrip_conv : (clearTrip t s).conv = s.conv := rfl
@[simp] theorem clearTrip_trips : (clearTrip t s).trips = s.trips := rfl
@[simp] theorem clearTrip_agreement : (clearTrip t s).agreement = s.agreement := rfl
@[simp] theorem clearTrip_links : (clearTrip t s).links = s.links := rfl
@[simp] theorem clearTrip_pins : (clearTrip t s).pins = s.pins := rfl
@[simp] theorem clearTrip_due : (clearTrip t s).due = s.due := rfl
@[simp] theorem clearTrip_pending : (clearTrip t s).pending = s.pending := rfl

end

/-! `advance` writes tickStamp, tb, sync, conv, pins, due. -/

section

variable (levels : TickPins) (s : State)

@[simp] theorem advance_inReset : (advance levels s).inReset = s.inReset := rfl
@[simp] theorem advance_sessions : (advance levels s).sessions = s.sessions := rfl
@[simp] theorem advance_lanes : (advance levels s).lanes = s.lanes := rfl
@[simp] theorem advance_commits : (advance levels s).commits = s.commits := rfl
@[simp] theorem advance_groupReport : (advance levels s).groupReport = s.groupReport := rfl
@[simp] theorem advance_slots : (advance levels s).slots = s.slots := rfl
@[simp] theorem advance_delivery : (advance levels s).delivery = s.delivery := rfl
@[simp] theorem advance_trips : (advance levels s).trips = s.trips := rfl
@[simp] theorem advance_agreement : (advance levels s).agreement = s.agreement := rfl
@[simp] theorem advance_links : (advance levels s).links = s.links := rfl
@[simp] theorem advance_pending : (advance levels s).pending = s.pending := rfl

end

/-! `heard` writes sessions. -/

section

variable (p : Port) (s : State)

@[simp] theorem heard_inReset : (heard p s).inReset = s.inReset := rfl
@[simp] theorem heard_tickStamp : (heard p s).tickStamp = s.tickStamp := rfl
@[simp] theorem heard_tb : (heard p s).tb = s.tb := rfl
@[simp] theorem heard_sync : (heard p s).sync = s.sync := rfl
@[simp] theorem heard_lanes : (heard p s).lanes = s.lanes := rfl
@[simp] theorem heard_commits : (heard p s).commits = s.commits := rfl
@[simp] theorem heard_groupReport : (heard p s).groupReport = s.groupReport := rfl
@[simp] theorem heard_slots : (heard p s).slots = s.slots := rfl
@[simp] theorem heard_conv : (heard p s).conv = s.conv := rfl
@[simp] theorem heard_delivery : (heard p s).delivery = s.delivery := rfl
@[simp] theorem heard_trips : (heard p s).trips = s.trips := rfl
@[simp] theorem heard_agreement : (heard p s).agreement = s.agreement := rfl
@[simp] theorem heard_links : (heard p s).links = s.links := rfl
@[simp] theorem heard_pins : (heard p s).pins = s.pins := rfl
@[simp] theorem heard_due : (heard p s).due = s.due := rfl
@[simp] theorem heard_pending : (heard p s).pending = s.pending := rfl

end

/-! `replied` writes links. -/

section

variable (p : Port) (tag : Nat) (st : Status) (bytes : List Byte) (s : State)

@[simp] theorem replied_inReset : (replied p tag st bytes s).inReset = s.inReset := rfl
@[simp] theorem replied_tickStamp : (replied p tag st bytes s).tickStamp = s.tickStamp := rfl
@[simp] theorem replied_tb : (replied p tag st bytes s).tb = s.tb := rfl
@[simp] theorem replied_sync : (replied p tag st bytes s).sync = s.sync := rfl
@[simp] theorem replied_sessions : (replied p tag st bytes s).sessions = s.sessions := rfl
@[simp] theorem replied_lanes : (replied p tag st bytes s).lanes = s.lanes := rfl
@[simp] theorem replied_commits : (replied p tag st bytes s).commits = s.commits := rfl
@[simp] theorem replied_groupReport : (replied p tag st bytes s).groupReport = s.groupReport := rfl
@[simp] theorem replied_slots : (replied p tag st bytes s).slots = s.slots := rfl
@[simp] theorem replied_conv : (replied p tag st bytes s).conv = s.conv := rfl
@[simp] theorem replied_delivery : (replied p tag st bytes s).delivery = s.delivery := rfl
@[simp] theorem replied_trips : (replied p tag st bytes s).trips = s.trips := rfl
@[simp] theorem replied_agreement : (replied p tag st bytes s).agreement = s.agreement := rfl
@[simp] theorem replied_pins : (replied p tag st bytes s).pins = s.pins := rfl
@[simp] theorem replied_due : (replied p tag st bytes s).due = s.due := rfl
@[simp] theorem replied_pending : (replied p tag st bytes s).pending = s.pending := rfl

end

end Sys2Proof.Machine
end

