-- ==== Sys2Proof/Laws/Ops.lean ====
section
/-! SUPPORT. For each shared operation of the model, what it can write and nothing else: a state equation that names
the fields it may give a new value. A prover cites these in place of unfolding the operation. -/

namespace Sys2Proof.Machine

/-! ### Delivery -/

/-- An emission writes the delivery records only. -/
theorem emit_frame (f : Port → Option Event) (s : State) : ∃ d, emit f s = { s with delivery := d } := ⟨_, rfl⟩

/-- A port's delivery record after an emission. -/
theorem emit_delivery (f : Port → Option Event) (s : State) (i : Nat) (h : i < 4) :
    (emit f s).delivery[i] =
      match f ⟨i, h⟩ with
      | none => s.delivery[i]
      | some e => if isOpen s ⟨i, h⟩ then s.delivery[i].pushEvent e s.tb.seq else s.delivery[i] := by
  unfold emit
  rw [tabulate_getElem]
  rfl

/-- An emission leaves the result queues and their tallies alone. -/
theorem emit_results (f : Port → Option Event) (s : State) (i : Nat) (h : i < 4) :
    (emit f s).delivery[i].results = s.delivery[i].results ∧
      (emit f s).delivery[i].lostResults = s.delivery[i].lostResults := by
  rw [emit_delivery]
  split
  · exact ⟨rfl, rfl⟩
  · split
    · unfold Delivery.pushEvent; split <;> exact ⟨rfl, rfl⟩
    · exact ⟨rfl, rfl⟩

/-- Placing a result record writes the delivery records only. -/
theorem placeResult_frame (p : Port) (r : ResultRec) (s : State) :
    ∃ d, placeResult p r s = { s with delivery := d } := by
  unfold placeResult; split <;> exact ⟨_, rfl⟩

/-- Placing a result record leaves the event queues and their tallies alone. -/
theorem placeResult_events (p : Port) (r : ResultRec) (s : State) (i : Nat) (h : i < 4) :
    (placeResult p r s).delivery[i].events = s.delivery[i].events ∧
      (placeResult p r s).delivery[i].lostEvents = s.delivery[i].lostEvents := by
  unfold placeResult
  split
  · by_cases e : p.val = i
    · subst e; simp only [update_getElem_self]
      unfold Delivery.pushResult; split <;> exact ⟨rfl, rfl⟩
    · simp [update_getElem, e]
  · exact ⟨rfl, rfl⟩

theorem deliverFor_frame (r : ConvRequest) (st : ResultStatus) (s : State) :
    ∃ d, deliverFor r st s = { s with delivery := d } := by
  unfold deliverFor
  split
  · exact ⟨_, rfl⟩
  · exact placeResult_frame _ _ _

theorem deliverFor_events (r : ConvRequest) (st : ResultStatus) (s : State) (i : Nat) (h : i < 4) :
    (deliverFor r st s).delivery[i].events = s.delivery[i].events ∧
      (deliverFor r st s).delivery[i].lostEvents = s.delivery[i].lostEvents := by
  unfold deliverFor
  split
  · exact ⟨rfl, rfl⟩
  · exact placeResult_events _ _ _ _ _

theorem deliverAll_cons (r : ConvRequest) (rs : List ConvRequest) (st : ResultStatus) (s : State) :
    deliverAll (r :: rs) st s = deliverAll rs st (deliverFor r st s) := rfl

/-- A run of result records writes the delivery records only. -/
theorem deliverAll_frame (rs : List ConvRequest) (st : ResultStatus) (s : State) :
    ∃ d, deliverAll rs st s = { s with delivery := d } := by
  induction rs generalizing s with
  | nil => exact ⟨_, rfl⟩
  | cons r rs ih =>
    obtain ⟨d, h⟩ := deliverFor_frame r st s
    obtain ⟨d', h'⟩ := ih (deliverFor r st s)
    exact ⟨d', by rw [deliverAll_cons, h', h]⟩

theorem deliverAll_events (rs : List ConvRequest) (st : ResultStatus) (s : State) (i : Nat) (h : i < 4) :
    (deliverAll rs st s).delivery[i].events = s.delivery[i].events ∧
      (deliverAll rs st s).delivery[i].lostEvents = s.delivery[i].lostEvents := by
  induction rs generalizing s with
  | nil => exact ⟨rfl, rfl⟩
  | cons r rs ih =>
    rw [deliverAll_cons]
    have a := ih (deliverFor r st s)
    have b := deliverFor_events r st s i h
    exact ⟨a.1.trans b.1, a.2.trans b.2⟩

/-! ### The converter -/

/-- Taking the head writes the converter and the delivery records only; the converter is what `afterHead` says. -/
theorem takeHead_frame (s : State) :
    ∃ d, takeHead s = { s with conv := Converter.afterHead s s.conv.queue, delivery := d } := by
  obtain ⟨d, h⟩ := deliverAll_frame (s.conv.queue.takeWhile (ConvRequest.stale s.tickStamp)) (.missed .stale)
    { s with conv := Converter.afterHead s s.conv.queue }
  exact ⟨d, h⟩

theorem takeTrigger_frame (r : ConvRequest) (s : State) :
    ∃ c d, takeTrigger r s = { s with conv := c, delivery := d } := by
  unfold takeTrigger
  split
  · dsimp only
    split
    · obtain ⟨d, h⟩ := takeHead_frame { s with conv := { s.conv with queue := s.conv.queue ++ [r] } }
      exact ⟨_, d, h⟩
    · exact ⟨_, _, rfl⟩
  · obtain ⟨d, h⟩ := deliverFor_frame r (.missed .queueFull) s
    exact ⟨_, d, h⟩

theorem takeTrigger_events (r : ConvRequest) (s : State) (i : Nat) (h : i < 4) :
    (takeTrigger r s).delivery[i].events = s.delivery[i].events ∧
      (takeTrigger r s).delivery[i].lostEvents = s.delivery[i].lostEvents := by
  unfold takeTrigger
  split
  · dsimp only
    split
    · exact deliverAll_events _ _ _ _ _
    · exact ⟨rfl, rfl⟩
  · exact deliverFor_events _ _ _ _ _

theorem takeCompletion_frame (s : State) : ∃ c d, takeCompletion s = { s with conv := c, delivery := d } := by
  unfold takeCompletion
  split
  · exact ⟨_, _, rfl⟩
  · split
    · rename_i c _ _
      obtain ⟨d, h⟩ := deliverFor_frame c.request (.ok c.capture c.wait)
        { s with conv := { s.conv with inFlight := none } }
      unfold finishConversion
      rw [h]
      obtain ⟨d', h'⟩ := takeHead_frame { s with conv := { s.conv with inFlight := none }, delivery := d }
      exact ⟨_, d', h'⟩
    · exact ⟨_, _, rfl⟩

theorem abortQueue_frame (s : State) :
    ∃ d, abortQueue s = { s with conv := { s.conv with queue := [] }, delivery := d } := by
  obtain ⟨d, h⟩ := deliverAll_frame s.conv.queue .aborted { s with conv := { s.conv with queue := [] } }
  exact ⟨d, h⟩

/-! ### The sample schedule -/

theorem emptyOnce_frame (i : Slot) (r : SlotRec) (s : State) :
    ∃ sl es, emptyOnce i r s = { s with slots := sl, commits := es } := by
  unfold emptyOnce; split <;> exact ⟨_, _, rfl⟩

/-- A firing writes the slots, the commit list, the converter and the delivery records only. -/
theorem fireSlot_frame (i : Slot) (s : State) :
    ∃ sl es c d, fireSlot i s = { s with slots := sl, commits := es, conv := c, delivery := d } := by
  unfold fireSlot
  split
  · exact ⟨_, _, _, _, rfl⟩
  · rename_i r _
    obtain ⟨c, d, h⟩ := takeTrigger_frame (triggerOf s i r)
      { s with slots := s.slots.set i (some { r with lastFired := some s.tb.seq }) }
    rw [h]
    obtain ⟨sl, es, h'⟩ := emptyOnce_frame i r
      { s with slots := s.slots.set i (some { r with lastFired := some s.tb.seq }), conv := c, delivery := d }
    exact ⟨sl, es, c, d, h'⟩

theorem emptyOnce_delivery (i : Slot) (r : SlotRec) (s : State) : (emptyOnce i r s).delivery = s.delivery := by
  unfold emptyOnce; split <;> rfl

theorem fireSlot_events (i : Slot) (s : State) (j : Nat) (h : j < 4) :
    (fireSlot i s).delivery[j].events = s.delivery[j].events ∧
      (fireSlot i s).delivery[j].lostEvents = s.delivery[j].lostEvents := by
  unfold fireSlot
  split
  · exact ⟨rfl, rfl⟩
  · rename_i r _
    simp only [emptyOnce_delivery]
    exact takeTrigger_events (triggerOf s i r) _ j h

/-- A firing judgement writes the slots, the commit list, the converter and the delivery records only. -/
theorem fireAmong_frame (test : State → Slot → Bool) (s : State) :
    ∃ sl es c d, fireAmong test s = { s with slots := sl, commits := es, conv := c, delivery := d } := by
  unfold fireAmong
  generalize List.finRange 32 = l
  induction l generalizing s with
  | nil => exact ⟨_, _, _, _, rfl⟩
  | cons i l ih =>
    rw [List.foldl_cons]
    split
    · obtain ⟨sl, es, c, d, h⟩ := fireSlot_frame i s
      obtain ⟨sl', es', c', d', h'⟩ := ih (fireSlot i s)
      exact ⟨sl', es', c', d', by rw [h', h]⟩
    · exact ih s

theorem fireAmong_events (test : State → Slot → Bool) (s : State) (j : Nat) (h : j < 4) :
    (fireAmong test s).delivery[j].events = s.delivery[j].events ∧
      (fireAmong test s).delivery[j].lostEvents = s.delivery[j].lostEvents := by
  unfold fireAmong
  generalize List.finRange 32 = l
  induction l generalizing s with
  | nil => exact ⟨rfl, rfl⟩
  | cons i l ih =>
    rw [List.foldl_cons]
    split
    · have a := ih (fireSlot i s)
      have b := fireSlot_events i s j h
      exact ⟨a.1.trans b.1, a.2.trans b.2⟩
    · exact ih s

/-- A firing judgement in which no slot is due does nothing. -/
theorem fireAmong_of_none (test : State → Slot → Bool) (s : State) (h : ∀ i, (test s i && slotDue s i) = false) :
    fireAmong test s = s := by
  unfold fireAmong
  generalize List.finRange 32 = l
  induction l with
  | nil => rfl
  | cons i l ih => rw [List.foldl_cons, if_neg (by simp [h i]), ih]

/-- A run of result records writes the delivery records only. -/
theorem placeAll_frame (rs : List (Port × ResultRec)) (s : State) : ∃ d, placeAll rs s = { s with delivery := d } := by
  unfold placeAll
  induction rs generalizing s with
  | nil => exact ⟨_, rfl⟩
  | cons m rs ih =>
    rw [List.foldl_cons]
    obtain ⟨d, h⟩ := placeResult_frame m.1 m.2 s
    obtain ⟨d', h'⟩ := ih (placeResult m.1 m.2 s)
    exact ⟨d', by rw [h', h]⟩

theorem placeAll_events (rs : List (Port × ResultRec)) (s : State) (j : Nat) (h : j < 4) :
    (placeAll rs s).delivery[j].events = s.delivery[j].events ∧
      (placeAll rs s).delivery[j].lostEvents = s.delivery[j].lostEvents := by
  unfold placeAll
  induction rs generalizing s with
  | nil => exact ⟨rfl, rfl⟩
  | cons m rs ih =>
    rw [List.foldl_cons]
    have a := ih (placeResult m.1 m.2 s)
    have b := placeResult_events m.1 m.2 s j h
    exact ⟨a.1.trans b.1, a.2.trans b.2⟩

theorem handCut_frame (s : State) :
    ∃ d, handCut s = { s with due := { s.due with schedule := false, cut := [] }, delivery := d } := by
  obtain ⟨d, h⟩ := placeAll_frame s.due.cut { s with due := { s.due with schedule := false, cut := [] } }
  exact ⟨d, h⟩

/-- The schedule's judgement writes the slots, the commit list, the converter and the delivery records only, and its
response is no longer due. -/
theorem fireDue_frame (s : State) :
    ∃ sl es c d, fireDue s =
      { s with slots := sl, commits := es, conv := c, delivery := d,
               due := { s.due with schedule := false, cut := [] } } := by
  unfold fireDue
  obtain ⟨d, h⟩ := handCut_frame s
  rw [h]
  obtain ⟨sl, es, c, d', h'⟩ := fireAmong_frame (fun s i => !s.due.commit || notPassedOver s i)
    { s with due := { s.due with schedule := false, cut := [] }, delivery := d }
  exact ⟨sl, es, c, d', h'⟩

theorem fireDue_events (s : State) (j : Nat) (h : j < 4) :
    (fireDue s).delivery[j].events = s.delivery[j].events ∧
      (fireDue s).delivery[j].lostEvents = s.delivery[j].lostEvents := by
  have a := fireAmong_events (fun s i => !s.due.commit || notPassedOver s i) (handCut s) j h
  have b := placeAll_events s.due.cut { s with due := { s.due with schedule := false, cut := [] } } j h
  exact ⟨a.1.trans b.1, a.2.trans b.2⟩

theorem takeSchedule_of_not_due (s : State) (h : s.due.schedule = false) : takeSchedule s = s := by
  simp [takeSchedule, h]

theorem takeLocked_of_not_due (s : State) (h : s.due.locked = none) : takeLocked s = s := by simp [takeLocked, h]

/-- Sending SYNC_LOCKED writes the delivery records, and it is no longer due. -/
theorem takeLocked_frame (s : State) :
    ∃ d, takeLocked s = { s with due := { s.due with locked := none }, delivery := d } := by
  unfold takeLocked
  split
  · rename_i h
    refine ⟨s.delivery, ?_⟩
    rw [← h]
  · exact ⟨_, rfl⟩

theorem releaseLocked_of_not_due (s : State) (h : s.due.locked = none) : releaseLocked s = s := by
  unfold releaseLocked
  rw [takeLocked_of_not_due s h]
  split <;> rfl

/-- While a lapse is due SYNC_LOCKED waits; otherwise it is sent. -/
theorem releaseLocked_cases (s : State) :
    ((∃ p : Port, s.sessions[p].lapses = true) ∧ releaseLocked s = s) ∨
      ((∀ p : Port, s.sessions[p].lapses = false) ∧ releaseLocked s = takeLocked s) := by
  unfold releaseLocked
  split
  · rename_i h
    simp only [someId, lapseDue, List.any_eq_true, List.mem_finRange, true_and] at h
    exact .inl ⟨h, rfl⟩
  · rename_i h
    simp only [someId, lapseDue, List.any_eq_true, List.mem_finRange, true_and, not_exists, Bool.not_eq_true] at h
    exact .inr ⟨h, rfl⟩

/-! ### The commit list -/

theorem tripByEntry_frame (p : Port) (l : Lane) (lines : LineSet) (s : State) :
    ∃ tr d, tripByEntry p l lines s = { s with trips := tr, delivery := d } := by
  unfold tripByEntry
  generalize members lines = ls
  induction ls generalizing s with
  | nil => exact ⟨_, _, rfl⟩
  | cons t ls ih =>
    rw [List.foldl_cons]
    obtain ⟨tr, d, h⟩ := ih (emitTo p (.trip t (single l))
      { s with trips := update s.trips t fun r => { r with informed := insertId r.informed p } })
    exact ⟨tr, d, h⟩

/-- An applied LANE_SET writes the lanes, the trip lines and the delivery records only. -/
theorem applyLaneSet_frame (l : Lane) (w : LaneSettings) (s : State) :
    ∃ la tr d, applyLaneSet l w s = { s with lanes := la, trips := tr, delivery := d } := by
  unfold applyLaneSet
  split
  · exact ⟨_, _, _, rfl⟩
  · unfold applyToLeased
    split
    · obtain ⟨tr, d, h⟩ := tripByEntry_frame ‹_› l (maskInForce s w.tripMask) _
      exact ⟨_, tr, d, h⟩
    · exact ⟨_, _, _, rfl⟩
  · unfold applyToTripped
    obtain ⟨tr, d, h⟩ := tripByEntry_frame ‹_› l _ _
    exact ⟨_, tr, d, h⟩
  · exact ⟨_, _, _, rfl⟩

theorem applyEntry_frame (s : State) (e : Entry) :
    ∃ la sl tr d, applyEntry s e = { s with lanes := la, slots := sl, trips := tr, delivery := d } := by
  unfold applyEntry
  split
  · obtain ⟨la, tr, d, h⟩ := applyLaneSet_frame ‹_› ‹_› s
    exact ⟨la, _, tr, d, h⟩
  · exact ⟨_, _, _, _, rfl⟩
  · exact ⟨_, _, _, _, rfl⟩

theorem applyEntries_frame (es : List Entry) (s : State) :
    ∃ la sl tr d, es.foldl applyEntry s = { s with lanes := la, slots := sl, trips := tr, delivery := d } := by
  induction es generalizing s with
  | nil => exact ⟨_, _, _, _, rfl⟩
  | cons e es ih =>
    rw [List.foldl_cons]
    obtain ⟨la, sl, tr, d, h⟩ := applyEntry_frame s e
    obtain ⟨la', sl', tr', d', h'⟩ := ih (applyEntry s e)
    exact ⟨la', sl', tr', d', by rw [h', h]⟩

/-- The commit list's response writes the commit list, the lanes, the slots, the converter, the trip lines' informed
sets, the group reports and the delivery records, and is no longer due. -/
theorem applyCommits_frame (s : State) :
    ∃ es la sl c tr d, applyCommits s =
      { s with commits := es, lanes := la, slots := sl, conv := c, trips := tr, delivery := d,
               groupReport := Vector.replicate 4 false, due := { s.due with commit := false } } := by
  unfold applyCommits
  dsimp only
  obtain ⟨la, sl, tr, d, h⟩ := applyEntries_frame (s.commits.filter fun e => !e.held)
    { s with commits := s.commits.filter fun e => e.held, due := { s.due with commit := false } }
  rw [h]
  obtain ⟨sl', es', c', d', h'⟩ := fireAmong_frame
    (fun _ i => (s.commits.filter fun e => !e.held).any fun e => e.adds i)
    { s with commits := s.commits.filter fun e => e.held, due := { s.due with commit := false },
             lanes := la, slots := sl, trips := tr, delivery := d }
  rw [h']
  exact ⟨_, _, _, _, _, _, rfl⟩

theorem takeCommits_of_not_due (s : State) (h : s.due.commit = false) : takeCommits s = s := by simp [takeCommits, h]

/-! ### The other responses -/

theorem takeResume_of_not_due (s : State) (h : s.due.resume = false) : takeResume s = s := by simp [takeResume, h]

theorem takeResume_frame (s : State) :
    ∃ la d, takeResume s = { s with lanes := la, delivery := d, due := { s.due with resume := false } } := by
  unfold takeResume
  split
  · exact ⟨_, _, rfl⟩
  · rename_i h
    refine ⟨s.lanes, s.delivery, ?_⟩
    have : s.due.resume = false := by simpa using h
    cases s with
    | mk a b c d e f g h i j k l m n o due q =>
      cases due
      simp_all

theorem takeAgreement_of_not_due (s : State) (h : s.due.agreement = false) : takeAgreement s = s := by
  simp [takeAgreement, takeProposalCommit, takeProposalExpiry, h]

theorem endProposal_frame (id : Nat) (o : ProposalOutcome) (s : State) :
    ∃ d, endProposal id o s =
      { s with agreement := { s.agreement with proposal := none }, due := { s.due with agreement := false },
               delivery := d } := ⟨_, rfl⟩

/-- The agreement unit's response writes the timebase, the monitor, its own record and the delivery records only. -/
theorem takeProposalCommit_frame (s : State) :
    ∃ tb sy ag du d, takeProposalCommit s =
      { s with tb := tb, sync := sy, agreement := ag, due := du, delivery := d } := by
  unfold takeProposalCommit
  split
  · split
    · exact ⟨_, _, _, _, _, rfl⟩
    · exact ⟨_, _, _, _, _, rfl⟩
  · exact ⟨_, _, _, _, _, rfl⟩

theorem takeProposalExpiry_frame (s : State) :
    ∃ ag du d, takeProposalExpiry s = { s with agreement := ag, due := du, delivery := d } := by
  unfold takeProposalExpiry
  split
  · split
    · split
      · exact ⟨_, _, _, rfl⟩
      · exact ⟨_, _, _, rfl⟩
    · exact ⟨_, _, _, rfl⟩
  · exact ⟨_, _, _, rfl⟩

theorem takeAgreement_frame (s : State) :
    ∃ tb sy ag du d, takeAgreement s =
      { s with tb := tb, sync := sy, agreement := ag, due := du, delivery := d } := by
  unfold takeAgreement
  obtain ⟨tb, sy, ag, du, d, h⟩ := takeProposalCommit_frame s
  rw [h]
  obtain ⟨ag', du', d', h'⟩ := takeProposalExpiry_frame
    { s with tb := tb, sync := sy, agreement := ag, due := du, delivery := d }
  exact ⟨tb, sy, ag', du', d', h'⟩

theorem clearFreed_frame (k : EndKind) (b : State) (p : Port) (s : State) :
    ∃ d, clearFreed k b p s = { s with delivery := d } := by
  unfold clearFreed
  generalize List.finRange 4 = l
  induction l generalizing s with
  | nil => exact ⟨_, rfl⟩
  | cons t l ih =>
    rw [List.foldl_cons]
    split
    · obtain ⟨d, h⟩ := ih (emit (fun q =>
        if b.trips[t].informed[q] && decide (q ≠ p) then some (.tripCleared t) else none) s)
      exact ⟨d, h⟩
    · exact ih s

theorem agreementEnded_frame (p : Port) (s : State) :
    ∃ ag du d, agreementEnded p s = { s with agreement := ag, due := du, delivery := d } := by
  unfold agreementEnded
  split
  · exact ⟨_, _, _, rfl⟩
  · split
    · exact ⟨_, _, _, rfl⟩
    · split
      · exact ⟨_, _, _, rfl⟩
      · exact ⟨_, _, _, rfl⟩

/-- A session end purges the port; beyond that it writes the agreement unit and the delivery records only. -/
theorem endSession_frame (k : EndKind) (p : Port) (s : State) :
    ∃ ag du d, endSession k p s = { purge k p s with agreement := ag, due := du, delivery := d } := by
  unfold endSession
  obtain ⟨d, h⟩ := clearFreed_frame k s p (purge k p s)
  rw [h]
  obtain ⟨ag, du, d', h'⟩ := agreementEnded_frame p { purge k p s with delivery := d }
  exact ⟨ag, du, d', h'⟩

theorem lapsePort_frame (p : Port) (s : State) :
    ∃ ag du d, lapsePort p s = { purge .lapse p s with agreement := ag, due := du, delivery := d } := by
  unfold lapsePort
  obtain ⟨ag, du, d, h⟩ := endSession_frame .lapse p s
  rw [h]
  exact ⟨_, _, _, rfl⟩

theorem takeLapse_of_not_due (p : Port) (s : State) (h : s.sessions[p].lapses = false) : takeLapse p s = s := by
  have : lapseDue s p = false := h
  simp [takeLapse, this]

/-- With no response to a boundary outstanding, there is none to take. -/
theorem finishBoundary_of_quiet (s : State) (h : Quiet s) : finishBoundary s = s := by
  obtain ⟨hs, hk, hc, ha, hr, hl⟩ := h
  unfold finishBoundary takeResponses
  rw [takeLocked_of_not_due s hk, takeSchedule_of_not_due s hs, takeCommits_of_not_due s hc,
    takeAgreement_of_not_due s ha, takeLapse_of_not_due 0 s (hl 0), takeLapse_of_not_due 1 s (hl 1),
    takeLapse_of_not_due 2 s (hl 2), takeLapse_of_not_due 3 s (hl 3),
    takeResume_of_not_due s hr]

/-! ### What no response and no happening of a tick touches -/

/-- The parts of the state outside the blocks: the reset pin, the tick stamp, the links, the pins and the queue. -/
def SameOutside (s t : State) : Prop :=
  t.inReset = s.inReset ∧ t.tickStamp = s.tickStamp ∧ t.links = s.links ∧ t.pins = s.pins ∧ t.pending = s.pending

theorem SameOutside.rfl {s : State} : SameOutside s s := ⟨Eq.refl _, Eq.refl _, Eq.refl _, Eq.refl _, Eq.refl _⟩

theorem SameOutside.trans {s t u : State} (h : SameOutside s t) (h' : SameOutside t u) : SameOutside s u :=
  ⟨h'.1.trans h.1, h'.2.1.trans h.2.1, h'.2.2.1.trans h.2.2.1, h'.2.2.2.1.trans h.2.2.2.1,
    h'.2.2.2.2.trans h.2.2.2.2⟩

theorem takeCommits_outside (s : State) : SameOutside s (takeCommits s) := by
  unfold takeCommits
  split
  · obtain ⟨es, la, sl, c, tr, d, h⟩ := applyCommits_frame s
    rw [h]; exact ⟨rfl, rfl, rfl, rfl, rfl⟩
  · exact .rfl

theorem takeAgreement_outside (s : State) : SameOutside s (takeAgreement s) := by
  obtain ⟨tb, sy, ag, du, d, h⟩ := takeAgreement_frame s
  rw [h]; exact ⟨rfl, rfl, rfl, rfl, rfl⟩

theorem takeProposalCommit_outside (s : State) : SameOutside s (takeProposalCommit s) := by
  obtain ⟨tb, sy, ag, du, d, h⟩ := takeProposalCommit_frame s
  rw [h]; exact ⟨rfl, rfl, rfl, rfl, rfl⟩

theorem takeProposalExpiry_outside (s : State) : SameOutside s (takeProposalExpiry s) := by
  obtain ⟨ag, du, d, h⟩ := takeProposalExpiry_frame s
  rw [h]; exact ⟨rfl, rfl, rfl, rfl, rfl⟩

theorem endSession_outside (k : EndKind) (p : Port) (s : State) : SameOutside s (endSession k p s) := by
  obtain ⟨ag, du, d, h⟩ := endSession_frame k p s
  rw [h]; exact ⟨rfl, rfl, rfl, rfl, rfl⟩

theorem takeLocked_outside (s : State) : SameOutside s (takeLocked s) := by
  obtain ⟨d, h⟩ := takeLocked_frame s
  rw [h]; exact ⟨rfl, rfl, rfl, rfl, rfl⟩

theorem releaseLocked_outside (s : State) : SameOutside s (releaseLocked s) := by
  unfold releaseLocked
  split
  · exact .rfl
  · exact takeLocked_outside s

theorem takeLapse_outside (p : Port) (s : State) : SameOutside s (takeLapse p s) := by
  unfold takeLapse
  split
  · refine SameOutside.trans (t := lapsePort p s) ?_ (releaseLocked_outside _)
    obtain ⟨ag, du, d, h⟩ := lapsePort_frame p s
    rw [h]; exact ⟨rfl, rfl, rfl, rfl, rfl⟩
  · exact .rfl

theorem takeResume_outside (s : State) : SameOutside s (takeResume s) := by
  obtain ⟨la, d, h⟩ := takeResume_frame s
  rw [h]; exact ⟨rfl, rfl, rfl, rfl, rfl⟩

theorem takeResponses_outside (s : State) : SameOutside s (takeResponses s) :=
  (takeCommits_outside s).trans <| (takeAgreement_outside _).trans <| (takeLapse_outside 0 _).trans <|
    (takeLapse_outside 1 _).trans <| (takeLapse_outside 2 _).trans <| (takeLapse_outside 3 _).trans <|
      takeResume_outside _

theorem fireDue_outside (s : State) : SameOutside s (fireDue s) := by
  obtain ⟨sl, es, c, d, h⟩ := fireDue_frame s
  rw [h]; exact ⟨rfl, rfl, rfl, rfl, rfl⟩

theorem takeSchedule_outside (s : State) : SameOutside s (takeSchedule s) := by
  unfold takeSchedule
  split
  · exact fireDue_outside s
  · exact .rfl

theorem finishBoundary_outside (s : State) : SameOutside s (finishBoundary s) :=
  (takeLocked_outside s).trans <| (takeSchedule_outside _).trans <| takeResponses_outside _

theorem makeBoundary_outside (k : BoundaryKind) (s : State) : SameOutside s (makeBoundary k s) :=
  ⟨rfl, rfl, rfl, rfl, rfl⟩

theorem takeWrap_outside (s : State) : SameOutside s (takeWrap s) := by
  unfold takeWrap
  split
  · exact makeBoundary_outside _ _
  · exact .rfl

theorem takeGrace_outside (s : State) : SameOutside s (takeGrace s) := by
  unfold takeGrace
  split
  · unfold graceRunsOut
    dsimp only
    split <;> exact ⟨rfl, rfl, rfl, rfl, rfl⟩
  · exact .rfl

theorem takeCompletion_outside (s : State) : SameOutside s (takeCompletion s) := by
  obtain ⟨c, d, h⟩ := takeCompletion_frame s
  rw [h]; exact ⟨rfl, rfl, rfl, rfl, rfl⟩

theorem acceptLock_outside (s : State) : SameOutside s (acceptLock s) := by
  unfold acceptLock
  dsimp only
  generalize hb : (if 0 < s.tb.counter then makeBoundary (.edge s.tb.counter) s else s) = b
  have h : SameOutside s b := by
    rw [← hb]
    split
    · exact makeBoundary_outside _ _
    · exact .rfl
  split
  · exact h.trans (SameOutside.trans ⟨rfl, rfl, rfl, rfl, rfl⟩ (releaseLocked_outside _))
  · exact h.trans (SameOutside.trans ⟨rfl, rfl, rfl, rfl, rfl⟩ (takeLocked_outside _))

theorem judgeEdge_outside (s : State) : SameOutside s (judgeEdge s) := by
  unfold judgeEdge
  split
  · exact .rfl
  · exact .rfl
  · exact acceptLock_outside s
  · unfold judgeLocked
    split
    · split
      · split <;> exact ⟨rfl, rfl, rfl, rfl, rfl⟩
      · exact .rfl
    · split
      · unfold earlyEdge
        dsimp only
        have h := makeBoundary_outside (.edge s.tb.counter) s
        generalize makeBoundary (.edge s.tb.counter) s = b at h ⊢
        exact h.trans ⟨rfl, rfl, rfl, rfl, rfl⟩
      · exact .rfl
  · exact acceptLock_outside s

theorem edgeTaken_outside (s : State) : SameOutside s (edgeTaken s) :=
  (takeWrap_outside s).trans
    (SameOutside.trans (t := { takeWrap s with due := { (takeWrap s).due with edge := false } })
      ⟨rfl, rfl, rfl, rfl, rfl⟩ (judgeEdge_outside _))

theorem takeEdge_outside (s : State) : SameOutside s (takeEdge s) := by
  unfold takeEdge
  split
  · exact edgeTaken_outside s
  · exact .rfl

theorem recoverLanes_outside (t : Line) (s : State) : SameOutside s (recoverLanes t s) := by
  unfold recoverLanes
  split <;> exact ⟨rfl, rfl, rfl, rfl, rfl⟩

theorem deassertLine_outside (t : Line) (s : State) : SameOutside s (deassertLine t s) :=
  SameOutside.trans ⟨rfl, rfl, rfl, rfl, rfl⟩ (recoverLanes_outside t _)

theorem takeSample_outside (t : Line) (s : State) : SameOutside s (takeSample t s) := by
  unfold takeSample
  split
  · refine SameOutside.trans (t := sampleTaken t s) ⟨rfl, rfl, rfl, rfl, rfl⟩ ?_
    unfold moveLine
    split
    · exact ⟨rfl, rfl, rfl, rfl, rfl⟩
    · exact ⟨rfl, rfl, rfl, rfl, rfl⟩
    · exact deassertLine_outside t _
  · exact .rfl

/-- Taking what a tick still owes touches no pin, no link, no waiting command and not the tick stamp. -/
theorem settle_outside (s : State) : SameOutside s (settle s) :=
  (takeWrap_outside s).trans <| (fireDue_outside _).trans <| (takeGrace_outside _).trans <|
    (takeCompletion_outside _).trans <| (takeEdge_outside _).trans <| (takeLocked_outside _).trans <|
      (fireDue_outside _).trans <| (takeResponses_outside _).trans <| (takeSample_outside 0 _).trans <|
        (takeSample_outside 1 _).trans <| (takeSample_outside 2 _).trans <| takeSample_outside 3 _

/-! ### Happenings and requests -/

/-- A happening in a state out of reset with no SYNC_LOCKED waiting. -/
theorem happens_of_awake (f : State → State) (s : State) (h : Awake s) : happens f s = f s := by
  simp [happens, whileRunning, h.1, takeLocked_of_not_due s h.2]

/-- A request of a port whose lapse is not due, with no SYNC_LOCKED waiting: the silence reset, the command, the held
response. -/
theorem takeRequest_eq (p : Port) (tag : Nat) (cmd : Option Nat → Command) (s : State)
    (hk : s.due.locked = none) (h : s.sessions[p].lapses = false) :
    takeRequest p tag cmd s =
      hold p
        { tag := byteOf tag, status := (cmd s.sessions[p].silenceCount (hear p s)).2.status,
          payload := (cmd s.sessions[p].silenceCount (hear p s)).2.payload }
        (cmd s.sessions[p].silenceCount (hear p s)).1 := by
  unfold takeRequest
  rw [takeLocked_of_not_due s hk, takeLapse_of_not_due p s h]

/-- A `tb_start` or `tb_stop` with nothing outstanding of a boundary is a request like any other. -/
theorem takeTimebaseRequest_of_quiet (p : Port) (tag : Nat) (cmd : Option Nat → Command) (s : State) (h : Quiet s) :
    takeTimebaseRequest p tag cmd s = takeRequest p tag cmd s := by
  unfold takeTimebaseRequest
  rw [finishBoundary_of_quiet s h]

/-- Holding a response is the reply of Safety. -/
theorem hold_eq_replied (p : Port) (tag : Nat) (st : Status) (bytes : List Byte) (s : State) :
    hold p { tag := byteOf tag, status := st, payload := bytes } s = replied p tag st bytes s := rfl

/-- A request of an OPEN port finds its silence count at 0. -/
theorem hear_of_open (p : Port) (s : State) (h : s.sessions[p].state = .opened) : hear p s = heard p s := by
  have : Session.hear s.sessions[p] = { s.sessions[p] with silenceCount := some 0 } := by
    unfold Session.hear
    split
    · simp_all
    · rfl
    · simp_all
  unfold hear heard update
  rw [this]

/-- A request of a port that is not OPEN resets no silence count. -/
theorem hear_of_not_open (p : Port) (s : State) (h : s.sessions[p].state ≠ .opened) : hear p s = s := by
  have : Session.hear s.sessions[p] = s.sessions[p] := by
    unfold Session.hear
    split
    · rfl
    · contradiction
    · rfl
  unfold hear update
  rw [this]
  simp

/-- What `inSession` does in each state of the session. -/
theorem inSession_cases (p : Port) (cmd : Command) (s : State) :
    (s.sessions[p].state = .closed ∧ inSession p cmd s = refuse .noSession s) ∨
      (s.sessions[p].state = .opened ∧ inSession p cmd s = cmd s) ∨
        (s.sessions[p].state = .lapsed ∧ inSession p cmd s = refuse .lapsed s) := by
  unfold inSession
  split
  · exact .inl ⟨‹_›, rfl⟩
  · exact .inr (.inl ⟨‹_›, rfl⟩)
  · exact .inr (.inr ⟨‹_›, rfl⟩)

/-- In an OPEN session the command is judged. -/
theorem inSession_of_open (p : Port) (cmd : Command) (s : State) (h : s.sessions[p].state = .opened) :
    inSession p cmd s = cmd s := by
  unfold inSession; rw [h]

end Sys2Proof.Machine
end

