-- ==== Sys2Proof/Laws/PerInstr.lean ====
section
/-! SUPPORT. Statements about every command as syntax, made command by command. FrameShape: a request row has a code
that is no idle byte, its payload has the length the command table gives that code, and its frame fits the receive
buffer (R166, R170, R173). -/

namespace Sys2Proof.Laws

/-- A request row's frame has the shape the command table gives it; the other rows have no frame. -/
def FrameShape.Statement (i : Instr) : Prop :=
  ∀ q ∈ i.request?, q.2.2.code ≠ 0x00#8 ∧ requiredLength q.2.2.code = some q.2.2.payload.length ∧
    q.2.2.payload.length + 4 ≤ Config.rxCapacity

/-- A row that is no request has no frame. -/
theorem frameShape_of_none {i : Instr} (h : i.request? = none) : FrameShape.Statement i := by
  intro q hq
  rw [h] at hq
  cases hq

/-- Every request has the shape of its row of the command table. -/
theorem request_shape (r : Request) : r.code ≠ 0x00#8 ∧ requiredLength r.code = some r.payload.length ∧
    r.payload.length + 4 ≤ Config.rxCapacity := by
  cases r <;> refine ⟨?_, rfl, ?_⟩ <;> simp [Request.code, Request.payload, wordOf, Config.rxCapacity]

/-- A request row has the shape of its request's frame. -/
theorem frameShape_of_some {i : Instr} {p : Port} {tag : Nat} {r : Request} (h : i.request? = some (p, tag, r)) :
    FrameShape.Statement i := by
  intro q hq
  rw [h] at hq
  cases hq
  exact request_shape r

theorem FrameShape.partReset : FrameShape.Statement .partReset :=
  frameShape_of_none rfl

theorem FrameShape.resetRelease : FrameShape.Statement .resetRelease :=
  frameShape_of_none rfl

theorem FrameShape.tick (levels : TickPins) : FrameShape.Statement (.tick levels) :=
  frameShape_of_none rfl

theorem FrameShape.wrap : FrameShape.Statement .wrap :=
  frameShape_of_none rfl

theorem FrameShape.graceExpiry : FrameShape.Statement .graceExpiry :=
  frameShape_of_none rfl

theorem FrameShape.syncEdge : FrameShape.Statement .syncEdge :=
  frameShape_of_none rfl

theorem FrameShape.commitApply : FrameShape.Statement .commitApply :=
  frameShape_of_none rfl

theorem FrameShape.lanesResumed : FrameShape.Statement .lanesResumed :=
  frameShape_of_none rfl

theorem FrameShape.lapse (port : Port) : FrameShape.Statement (.lapse port) :=
  frameShape_of_none rfl

theorem FrameShape.proposalCommit : FrameShape.Statement .proposalCommit :=
  frameShape_of_none rfl

theorem FrameShape.proposalExpiry : FrameShape.Statement .proposalExpiry :=
  frameShape_of_none rfl

theorem FrameShape.slotFire : FrameShape.Statement .slotFire :=
  frameShape_of_none rfl

theorem FrameShape.conversionComplete : FrameShape.Statement .conversionComplete :=
  frameShape_of_none rfl

theorem FrameShape.tripPinSample (line : Line) : FrameShape.Statement (.tripPinSample line) :=
  frameShape_of_none rfl

theorem FrameShape.tripAssertion (line : Line) : FrameShape.Statement (.tripAssertion line) :=
  frameShape_of_none rfl

theorem FrameShape.tripDeassertion (line : Line) : FrameShape.Statement (.tripDeassertion line) :=
  frameShape_of_none rfl

theorem FrameShape.transactionBegin (port : Port) : FrameShape.Statement (.transactionBegin port) :=
  frameShape_of_none rfl

theorem FrameShape.byteClocked (port : Port) (byte : Byte) : FrameShape.Statement (.byteClocked port byte) :=
  frameShape_of_none rfl

theorem FrameShape.transactionEnd (port : Port) : FrameShape.Statement (.transactionEnd port) :=
  frameShape_of_none rfl

theorem FrameShape.sessionOpen (port : Port) (tag silenceLimit resultThreshold : Nat) : FrameShape.Statement (.sessionOpen port tag silenceLimit resultThreshold) :=
  frameShape_of_some rfl

theorem FrameShape.nop (port : Port) (tag : Nat) : FrameShape.Statement (.nop port tag) :=
  frameShape_of_some rfl

theorem FrameShape.status (port : Port) (tag selector : Nat) : FrameShape.Statement (.status port tag selector) :=
  frameShape_of_some rfl

theorem FrameShape.sessionClose (port : Port) (tag : Nat) : FrameShape.Statement (.sessionClose port tag) :=
  frameShape_of_some rfl

theorem FrameShape.tbStart (port : Port) (tag : Nat) : FrameShape.Statement (.tbStart port tag) :=
  frameShape_of_some rfl

theorem FrameShape.tbStop (port : Port) (tag : Nat) : FrameShape.Statement (.tbStop port tag) :=
  frameShape_of_some rfl

theorem FrameShape.laneLease (port : Port) (tag lane : Nat) : FrameShape.Statement (.laneLease port tag lane) :=
  frameShape_of_some rfl

theorem FrameShape.laneRelease (port : Port) (tag lane : Nat) : FrameShape.Statement (.laneRelease port tag lane) :=
  frameShape_of_some rfl

theorem FrameShape.laneSet (port : Port) (tag lane onAt length activeLevel safeLevel tripMask : Nat) : FrameShape.Statement (.laneSet port tag lane onAt length activeLevel safeLevel tripMask) :=
  frameShape_of_some rfl

theorem FrameShape.groupBegin (port : Port) (tag : Nat) : FrameShape.Statement (.groupBegin port tag) :=
  frameShape_of_some rfl

theorem FrameShape.groupEnd (port : Port) (tag : Nat) : FrameShape.Statement (.groupEnd port tag) :=
  frameShape_of_some rfl

theorem FrameShape.groupCancel (port : Port) (tag : Nat) : FrameShape.Statement (.groupCancel port tag) :=
  frameShape_of_some rfl

theorem FrameShape.sampleAdd (port : Port) (tag offset channel mode divisor phase maxWait sampleTag : Nat) : FrameShape.Statement (.sampleAdd port tag offset channel mode divisor phase maxWait sampleTag) :=
  frameShape_of_some rfl

theorem FrameShape.sampleRemove (port : Port) (tag slot : Nat) : FrameShape.Statement (.sampleRemove port tag slot) :=
  frameShape_of_some rfl

theorem FrameShape.readResults (port : Port) (tag max : Nat) : FrameShape.Statement (.readResults port tag max) :=
  frameShape_of_some rfl

theorem FrameShape.readEvents (port : Port) (tag max : Nat) : FrameShape.Statement (.readEvents port tag max) :=
  frameShape_of_some rfl

theorem FrameShape.tripClaim (port : Port) (tag line : Nat) : FrameShape.Statement (.tripClaim port tag line) :=
  frameShape_of_some rfl

theorem FrameShape.tripRelease (port : Port) (tag line : Nat) : FrameShape.Statement (.tripRelease port tag line) :=
  frameShape_of_some rfl

theorem FrameShape.tripSet (port : Port) (tag line polarity qualify mode : Nat) : FrameShape.Statement (.tripSet port tag line polarity qualify mode) :=
  frameShape_of_some rfl

theorem FrameShape.tripRearm (port : Port) (tag lanes : Nat) : FrameShape.Statement (.tripRearm port tag lanes) :=
  frameShape_of_some rfl

theorem FrameShape.propose (port : Port) (tag period source syncWindow voteWindow : Nat) : FrameShape.Statement (.propose port tag period source syncWindow voteWindow) :=
  frameShape_of_some rfl

theorem FrameShape.vote (port : Port) (tag id choice : Nat) : FrameShape.Statement (.vote port tag id choice) :=
  frameShape_of_some rfl

theorem FrameShape.withdraw (port : Port) (tag id : Nat) : FrameShape.Statement (.withdraw port tag id) :=
  frameShape_of_some rfl

end Sys2Proof.Laws
end

