-- ==== Sys2Proof/Tests/Slice0.lean ====
section
/-! SUPPORT. Tests: ill-formed commands that WellFormed refuses; bytes from the spec; one step of each command, its
expected result from the spec's rules and worked sequences; and for each statement with hypotheses a witness of them. -/

namespace Sys2Proof.Tests

set_option Elab.async false

open Sys2Proof.Machine

/-! ### Small states -/

/-- The state after a command that gives one. -/
def after (i : Instr) (s : State) : State :=
  match exec i s with
  | .next t => t
  | .fault _ => s
  | .refused _ => s

/-- The status and the payload held for port 0. -/
def answer (s : State) : Status × List Byte := (s.links[(0 : Port)].held.status, s.links[(0 : Port)].held.payload)

def openSession : Session :=
  { state := .opened, silenceLimit := some 1000, silenceCount := some 3, resultThreshold := some 4, groupOpen := false }

/-- Every port OPEN, the timebase running FREE at counter 100 of frame 9. -/
def live : State :=
  { State.reset with
    sessions := Vector.replicate 4 openSession
    tb := { Timebase.reset with state := .free, counter := 100, seq := 9 } }

def setLane (l : Lane) (status : LaneStatus) (settings : LaneSettings) (s : State) : State :=
  { s with lanes := s.lanes.set l { status := status, settings := settings } }

def setTrip (t : Line) (r : TripLine) (s : State) : State := { s with trips := s.trips.set t r }

def setSlot (i : Slot) (r : SlotRec) (s : State) : State := { s with slots := s.slots.set i (some r) }

def setSession (p : Port) (r : Session) (s : State) : State := { s with sessions := s.sessions.set p r }

/-- A window of 1000 ticks from 500, active HIGH, safe OPEN, under a mask. -/
def window (mask : LineSet) : LaneSettings :=
  { onAt := 500, length := 1000, activeLevel := .high, safeLevel := .hiz, tripMask := mask }

def noLines : LineSet := IdSet.none 4

/-- A line with an owner, ACTIVE_HIGH. -/
def line (owner : Ownership) (qualify : Nat) (mode : TripMode) (detect : Detect) (count : Nat) (informed : PortSet) :
    TripLine :=
  { ownership := owner, settings := { polarity := .activeHigh, qualify := qualify, mode := mode }, detect := detect
    qualifyCount := count, informed := informed }

def slot (state : SlotState) (owner : Port) (offset : Nat) (mode : SlotMode) : SlotRec :=
  { state := state, owner := owner, tag := 7, offset := offset, channel := 2, mode := mode, maxWait := 50
    lastFired := none }

def request (owner : Option Port) (maxWait time : Nat) : ConvRequest :=
  { owner := owner, slot := 5, tag := 7, channel := 2, seq := 9, offset := 60, maxWait := maxWait, triggerTime := time }

def entry (p : Port) (a : EntryAction) (held : Bool) : Entry := { port := p, action := a, held := held, released := false }

def proposal (accepted : PortSet) (state : ProposalState) (source : NewSource) (left : Nat) : Proposal :=
  { id := 7, proposer := 0, period := 5000, source := source, voteWindow := 10, framesLeft := left
    electorate := insertId (single 0) 1, accepted := accepted, state := state }

def withProposal (pr : Proposal) (s : State) : State := { s with agreement := { proposal := some pr, nextId := 8 } }

def withDue (d : Due) (s : State) : State := { s with due := d }

def withTb (state : TbState) (source : Source) (counter : Nat) (s : State) : State :=
  { s with tb := { s.tb with state := state, source := source, counter := counter } }

def withGrace (s : State) : State := { s with sync := { s.sync with grace := true } }

def low : TickPins := { syncIn := false, trip := Vector.replicate 4 false, ain := Vector.replicate 8 0 }

/-- P0 owns L0 under T0, L1 TRIPPED by T0, L3, the lines T0 and T1 (T1 in force), slots S0 STAGED, S1 LIVE and S2
RETIRING with their entries; P1 owns L2 and S3; L4 and T2 are ORPHANED. -/
def held : State :=
  let s := setLane 3 (.leased 0) (window noLines) (setLane 2 (.leased 1) (window noLines) live)
  let s := setLane 1 (.tripped 0 (single 1) false) (window (single 1)) (setLane 0 (.leased 0) (window (single 0)) s)
  let s := setLane 4 .orphaned (window (single 1)) s
  let s := setTrip 1 (line (.owned 0) 0 .follow .asserted 0 (single 0)) (setTrip 0 (line (.owned 0) 0 .latch .idle 0 noLines) s)
  let s := setTrip 2 (line .orphaned 4 .latch .idle 0 noLines) s
  let s := setSlot 1 (slot .live 0 60 .every) (setSlot 0 (slot .staged 0 0 .once) s)
  let s := setSlot 3 (slot .live 1 100 .every) (setSlot 2 (slot .retiring 0 70 .once) s)
  { s with commits := [entry 0 (.laneSet 0 (window noLines)) false, entry 0 (.sampleAdd 0) false,
                       entry 0 (.sampleRemove 2) false] }

/-! ### WellFormed: each check has an ill-formed command that it refuses -/

def illFormed1 : List Instr :=
  [.nop 0 256, .sessionOpen 0 0 65536 1, .sessionOpen 0 0 1 256, .status 0 0 256, .laneLease 0 0 256,
   .laneRelease 0 0 256, .laneSet 0 0 256 0 0 0 0 0, .laneSet 0 0 0 65536 0 0 0 0, .laneSet 0 0 0 0 65536 0 0 0,
   .laneSet 0 0 0 0 0 256 0 0, .laneSet 0 0 0 0 0 0 256 0, .laneSet 0 0 0 0 0 0 0 256]

def illFormed2 : List Instr :=
  [.sampleAdd 0 0 65536 0 0 0 0 0 0, .sampleAdd 0 0 0 256 0 0 0 0 0, .sampleAdd 0 0 0 0 256 0 0 0 0,
   .sampleAdd 0 0 0 0 0 256 0 0 0, .sampleAdd 0 0 0 0 0 0 256 0 0, .sampleAdd 0 0 0 0 0 0 0 256 0,
   .sampleAdd 0 0 0 0 0 0 0 0 256, .sampleRemove 0 0 256, .readResults 0 0 256, .readEvents 0 0 256]

def illFormed3 : List Instr :=
  [.tripClaim 0 0 256, .tripRelease 0 0 256, .tripSet 0 0 256 0 0 0, .tripSet 0 0 0 256 0 0, .tripSet 0 0 0 0 256 0,
   .tripSet 0 0 0 0 0 256, .tripRearm 0 0 65536, .propose 0 0 65536 0 0 0, .propose 0 0 0 256 0 0,
   .propose 0 0 0 0 256 0, .propose 0 0 0 0 0 256, .vote 0 0 256 0, .vote 0 0 0 256, .withdraw 0 0 256]

theorem test_wellFormed_refuses : illFormed1.all (fun i => !i.wellFormed) = true ∧
    illFormed2.all (fun i => !i.wellFormed) = true ∧ illFormed3.all (fun i => !i.wellFormed) = true := by
  decide +kernel

theorem test_wellFormed_accepts :
    Instr.wellFormed (.sampleAdd 0 255 65535 255 255 255 255 255 255) = true ∧ Instr.wellFormed .wrap = true := by decide

/-! ### Bytes -/

/-- R170: the `nop` frame with tag 0x00 is 0x02, 0x00, 0x00, 0x75. -/
theorem test_crc_nop_frame : Request.nop.frame 0 = [0x02#8, 0x00#8, 0x00#8, 0x75#8] ∧
    judgeBuffer [0x02#8, 0x00#8, 0x00#8, 0x75#8] = .taken 0 .nop := by decide +kernel

/-- R170, R172, R173: `lane_set(3, 2500, 400, HIGH, OPEN, T1)` with tag 0x13, byte by byte. -/
theorem test_frame_lane_set : (Request.laneSet 3 2500 400 0 2 2).frameBody 0x13 =
    [0x22#8, 0x13#8, 0x08#8, 0x03#8, 0x09#8, 0xC4#8, 0x01#8, 0x90#8, 0x00#8, 0x02#8, 0x02#8] := by decide

/-- R171: a frame shorter than its L says is SHORT, and one with a wrong CRC byte is CRC. -/
theorem test_link_errors : judgeBuffer [0x02#8, 0x07#8, 0x00#8] = .linkError 7 .short ∧
    judgeBuffer [0x02#8, 0x07#8, 0x00#8, 0x75#8] = .linkError 7 .crc := by decide +kernel

theorem test_no_word_spells_a_command : decodeTableWord 8 0 = none ∧ live.withFetchWord 8 0 = live := by decide

/-! ### One step of each command -/

theorem test_partReset : (after .partReset held).tb = Timebase.reset ∧ (after .partReset held).lanes = State.reset.lanes := by
  decide +kernel

theorem test_resetRelease : (after .resetRelease (after .partReset live)).inReset = false := by decide +kernel

/-- 1.10: the tick after counter 7 takes SYNC_OUT LOW. -/
theorem test_tick : syncOut (withTb .free .free 7 live) = true ∧
    syncOut (after (.tick low) (withTb .free .free 7 live)) = false := by decide +kernel

/-- R2, R5: the tick stamp wraps, and at P−1 the counter waits for the wrap. -/
theorem test_tick_wraps : (after (.tick low) { withTb .free .free 3999 live with tickStamp := 4294967295 }).tickStamp = 0 ∧
    (after (.tick low) (withTb .free .free 3999 live)).due.wrap = true := by decide +kernel

/-- R7: 65535 is followed by 0; 2.4: the grace opens in LOCKED. -/
theorem test_wrap :
    let s := withDue { Due.none with wrap := true } (withTb .locked .follow 3999 live)
    (after .wrap { s with tb := { s.tb with seq := 65535 } }).tb.seq = 0 ∧ (after .wrap s).sync.grace = true := by
  decide +kernel

/-- P0's LIVE slot S9 at offset 0 and its silence count one below the limit, at the boundary a wrap has just made, with an
unheld SAMPLE_ADD of P1's slot S10. -/
def atBoundary : State :=
  after .wrap (setSession 0 { openSession with silenceCount := some 999 }
    (setSlot 10 (slot .staged 1 0 .every) (setSlot 9 (slot .live 0 0 .every)
      { withDue { Due.none with wrap := true } (withTb .free .free 3999 live) with
        commits := [entry 1 (.sampleAdd 10) false] })))

/-- R48, R92: the schedule's response fires S9 under the new seq, unless P0's lapse was taken first. -/
theorem test_wrap_then_lapse : (after .slotFire atBoundary).slots[(9 : Slot)].bind (·.lastFired) = some 10 ∧
    (after .slotFire (after (.lapse 0) atBoundary)).conv.inFlight = none := by decide +kernel

/-- R94: the triggers of the response taken first enter the converter first. -/
theorem test_slotFire_or_commitApply_first :
    (after .commitApply (after .slotFire atBoundary)).conv.inFlight.map (·.request.slot) = some 9 ∧
    (after .slotFire (after .commitApply atBoundary)).conv.inFlight.map (·.request.slot) = some 10 := by decide +kernel

/-- 2.12: the fourth expiry loses the lock. -/
theorem test_graceExpiry :
    let s := withGrace (withTb .locked .follow 16 { live with sync := { live.sync with slip := 3 } })
    (after .graceExpiry s).tb.state = .coasting ∧ (after .graceExpiry s).sync.slip = 4 := by decide +kernel

/-- 2.11: an early edge at 3990 gives phase_error −10 and an EDGE boundary; a late one at 5 gives +5 and no boundary. -/
theorem test_syncEdge :
    let e := withDue { Due.none with edge := true }
    (after .syncEdge (e (withTb .locked .follow 3990 live))).sync.phaseError = -10 ∧
    (after .syncEdge (e (withTb .locked .follow 3990 live))).tb.seq = 10 ∧
    (after .syncEdge (e (withGrace (withTb .locked .follow 5 live)))).sync.phaseError = 5 ∧
    (after .syncEdge (e (withGrace (withTb .locked .follow 5 live)))).tb.seq = 9 := by decide +kernel

/-- An edge at 3000 in COASTING, with P0 some frames silent. -/
def regaining (silence : Nat) : State :=
  setSession 0 { openSession with silenceCount := some silence }
    (withDue { Due.none with edge := true } (withTb .coasting .follow 3000 live))

/-- 2.12: the edge locks with phase_error −1000 and sends SYNC_LOCKED with the new seq. -/
theorem test_syncEdge_coasting :
    let s := after .syncEdge (regaining 0)
    s.tb.state = .locked ∧ s.sync.phaseError = -1000 ∧ s.due.locked = none ∧
    s.delivery[(0 : Port)].events = [{ event := .syncLocked true, seq := 10, lostBefore := 0 }] := by decide +kernel

/-- R34: a port that lapses at the edge's boundary, first, gets no SYNC_LOCKED, and the others get PORT_LAPSED before it;
with the event first they get it after. R30: no request parts the edge and its event. -/
theorem test_syncEdge_and_lapse :
    let s := after .syncEdge (regaining 999)
    (after (.lapse 0) s).delivery[(0 : Port)].events = [] ∧
    (after (.lapse 0) s).delivery[(1 : Port)].events.map (·.event) = [.portLapsed 0 0, .syncLocked true] ∧
    (after (.lapse 0) (after .syncEdge s)).delivery[(1 : Port)].events.map (·.event) = [.syncLocked true, .portLapsed 0 0] ∧
    (after (.nop 1 1) s).delivery[(1 : Port)].events.map (·.event) = [.syncLocked true] := by decide +kernel

/-- R64, R88, R90: the three entries of P0 apply. -/
theorem test_commitApply :
    let s := after .commitApply (withDue { Due.none with commit := true } held)
    s.commits = [] ∧ s.lanes[(0 : Lane)].settings = window noLines ∧ s.slots[(2 : Slot)] = none := by decide +kernel

/-- Four LANE_SETs of P0: T1 in force trips L3 and then L0, a mask without it empties L3's cause, and it comes back. -/
def several : State :=
  { held with commits := [entry 0 (.laneSet 3 (window (single 1))) false, entry 0 (.sampleAdd 0) false,
                          entry 0 (.laneSet 0 (window (single 1))) false, entry 0 (.laneSet 3 (window noLines)) false,
                          entry 0 (.sampleRemove 2) false, entry 0 (.laneSet 3 (window (single 1))) false] }

/-- R64, R65, R72: the entries act from head to tail, and their TRIP events stand in that order. -/
theorem test_commitApply_order :
    let s := after .commitApply (withDue { Due.none with commit := true } several)
    s.delivery[(0 : Port)].events.map (·.event) = [.trip 1 (single 3), .trip 1 (single 0), .trip 1 (single 3)] ∧
    s.lanes[(3 : Lane)].status = .tripped 0 (single 1) false := by decide +kernel

/-- R64: a new mask with a line in force trips the lane. -/
theorem test_commitApply_trips :
    let s := { held with commits := [entry 0 (.laneSet 3 (window (single 1))) false] }
    (after .commitApply (withDue { Due.none with commit := true } s)).lanes[(3 : Lane)].status
      = .tripped 0 (single 1) false := by decide +kernel

/-- R145. -/
theorem test_lanesResumed :
    (after .lanesResumed (withDue { Due.none with resume := true }
      (setLane 1 (.tripped 0 (single 1) true) (window noLines) held))).lanes[(1 : Lane)].status = .leased 0 := by
  decide +kernel

/-- 3.8: the lapse orphans P0's lanes, and the others are told how many. -/
theorem test_lapse :
    let s := after (.lapse 0) (setSession 0 { openSession with silenceCount := some 1000 } held)
    s.lanes[(0 : Lane)].status = .orphaned ∧ s.delivery[(1 : Port)].events.map (·.event) = [.portLapsed 0 3] := by
  decide +kernel

/-- R160. -/
theorem test_proposalCommit :
    let s := after .proposalCommit (withDue { Due.none with agreement := true }
      (withProposal (proposal (insertId (single 0) 1) .accepted (.follow 20) 4) live))
    s.tb.period = 5000 ∧ s.tb.window = 20 ∧ s.tb.state = .acquiring := by decide +kernel

/-- R161. -/
theorem test_proposalExpiry :
    (after .proposalExpiry (withDue { Due.none with agreement := true }
      (withProposal (proposal (single 0) .opened .free 0) live))).delivery[(3 : Port)].events.map (·.event)
        = [.proposalEnded 7 .expired] := by decide +kernel

/-- R91, R107: the trigger of S3, due at counter 100, starts the IDLE converter. -/
theorem test_slotFire :
    (after .slotFire held).slots[(3 : Slot)].bind (·.lastFired) = some 9 ∧
    (after .slotFire held).conv.inFlight.map (·.request.slot) = some 3 := by decide +kernel

/-- R93: a ONCE slot becomes EMPTY at its firing and its SAMPLE_REMOVE entry goes. -/
theorem test_slotFire_once :
    let s := after .slotFire (withTb .free .free 70 held)
    s.slots[(2 : Slot)] = none ∧ s.commits.length = 2 := by decide +kernel

/-- 7.9, 7.10: the OK record carries the wait; a request older than its max_wait is STALE. -/
theorem test_conversionComplete :
    let s := after .conversionComplete { live with
      tickStamp := 1000
      conv := { inFlight := some { request := request (some 0) 255 960, wait := 0, capture := 300, elapsed := 40 }
                queue := [request (some 1) 50 949] } }
    s.delivery[(0 : Port)].results.map (·.status) = [.ok 300 0] ∧
    s.delivery[(1 : Port)].results.map (·.status) = [.missed .stale] := by decide +kernel

/-- R108: an age equal to max_wait is not stale. -/
theorem test_conversion_at_max_wait :
    (after .conversionComplete { live with
      tickStamp := 1000
      conv := { inFlight := some { request := request none 255 960, wait := 0, capture := 300, elapsed := 40 }
                queue := [request (some 1) 50 950] } }).conv.inFlight.map (·.wait) = some 50 := by decide +kernel

/-- The line T0 at a detect state and count, qualify 8, its sample due and HIGH or LOW. -/
def sampled (high : Bool) (detect : Detect) (count : Nat) (s : State) : State :=
  setTrip 0 (line (.owned 0) 8 .latch detect count (single 0))
    { s with pins := { s.pins with trip := Vector.replicate 4 high }
             due := { Due.none with trip := Vector.replicate 4 true } }

/-- 9.10: a glitch is rejected; the sample that completes the count asserts. -/
theorem test_tripPinSample :
    (after (.tripPinSample 0) (sampled false .qualifyingOn 2 held)).trips[(0 : Line)].detect = .idle ∧
    (after (.tripPinSample 0) (sampled true .qualifyingOn 7 held)).trips[(0 : Line)].detect = .asserted := by
  decide +kernel

/-- R136, R137. -/
theorem test_tripAssertion :
    let s := after (.tripAssertion 0) (sampled true .qualifyingOn 7 held)
    s.lanes[(0 : Lane)].status = .tripped 0 (single 0) false ∧
    s.delivery[(0 : Port)].events.map (·.event) = [.trip 0 (single 0)] := by decide +kernel

/-- R138, R139. -/
theorem test_tripDeassertion :
    let s := after (.tripDeassertion 0) (sampled false .qualifyingOff 7 held)
    s.trips[(0 : Line)].informed = noLines ∧ s.delivery[(0 : Port)].events.map (·.event) = [.tripCleared 0] := by
  decide +kernel

theorem test_transactionBegin : (after (.transactionBegin 2) live).links[(2 : Port)].active = true := by decide +kernel

/-- 11.8: the first byte shifted out of the NONE frame is its length, 4. -/
theorem test_byteClocked :
    (after (.byteClocked 2 0xAB#8) (after (.transactionBegin 2) live)).links[(2 : Port)].lastOut = some 4#8 := by
  decide +kernel

/-- A transaction under way at port 0 with a receive buffer. -/
def received (rx : List Byte) (clocked : Nat) : State :=
  { live with links := live.links.set 0 { Link.reset with selLow := true, active := true, rx := rx, clocked := clocked } }

/-- R167: a frame with an unknown code is UNKNOWN; one with a sound CRC is taken. -/
theorem test_transactionEnd :
    answer (after (.transactionEnd 0) (received [0x05#8, 0x01#8, 0x00#8, crc8 [0x05#8, 0x01#8, 0x00#8]] 4))
      = (.unknown, []) ∧
    answer (after (.transactionEnd 0) (received ((Request.laneLease 16).frame 9) 5)) = (.range, []) := by decide +kernel

theorem test_sessionOpen : answer (after (.sessionOpen 0 1 500 2) State.reset) = (.ok, []) ∧
    answer (after (.sessionOpen 0 1 0 2) live) = (.range, []) := by decide +kernel

theorem test_nop : answer (after (.nop 0 1) State.reset) = (.ok, []) := by decide +kernel

/-- 1.11: `status` PART of a stopped timebase with P 4000, W 16, seq 3, counter 2300. -/
theorem test_status :
    answer (after (.status 0 1 0) { live with tb := { Timebase.reset with counter := 2300, seq := 3 } }) =
      (.ok, [0#8, 0#8, 0x0F#8, 0xA0#8, 16#8, 0#8, 3#8, 0x08#8, 0xFC#8, 0#8, 0#8, 0#8, 0#8, 0#8, 0#8, 0#8, 0#8, 0#8]) := by
  decide +kernel

/-- 11.3: the longest response is that of LANES with every lane owned, 212 bytes. -/
theorem test_status_lanes_length :
    (after (.status 0 1 2) { live with lanes := Vector.replicate 16 { status := .leased 0, settings := .fresh } }
      ).links[(0 : Port)].held.frame.length = 212 := by decide +kernel

theorem test_sessionClose :
    let s := after (.sessionClose 0 1) held
    s.lanes[(0 : Lane)] = LaneRec.reset ∧ s.trips[(0 : Line)] = TripLine.reset ∧ s.slots[(1 : Slot)] = none := by
  decide +kernel

/-- R148: a line in force that a close turns FREE is cleared to the ports left in informed. -/
theorem test_sessionClose_clears :
    (after (.sessionClose 0 1) (setTrip 0 (line (.owned 0) 0 .latch .asserted 0 (insertId (single 0) 1)) live)
      ).delivery[(1 : Port)].events.map (·.event) = [.tripCleared 0] := by decide +kernel

theorem test_tbStart :
    let s := after (.tbStart 0 1) { live with tb := Timebase.reset }
    s.tb.state = .free ∧ s.delivery[(3 : Port)].events.map (·.event) = [.timebaseStarted] := by decide +kernel

/-- 1.11: refused IN_USE while another port is bound; 7.11: the queued requests are aborted. -/
theorem test_tbStop : answer (after (.tbStop 0 1) held) = (.inUse, []) ∧
    (after (.tbStop 0 1) { live with conv := { live.conv with queue := [request (some 0) 255 0] } }
      ).delivery[(0 : Port)].results.map (·.status) = [.aborted] := by decide +kernel

/-- R55, 4.10: another port's lane is HELD; an adoption under a line in force is TRIPPED with length 0. -/
theorem test_laneLease : answer (after (.laneLease 0 1 2) held) = (.held, [1#8]) ∧
    answer (after (.laneLease 0 1 4) held) = (.ok, [2#8, 1#8]) ∧
    (after (.laneLease 0 1 4) held).lanes[(4 : Lane)].settings.length = 0 := by decide +kernel

theorem test_laneRelease : (after (.laneRelease 0 1 0) held).lanes[(0 : Lane)] = LaneRec.reset ∧
    (after (.laneRelease 0 1 0) held).commits.length = 2 := by decide +kernel

/-- 4.9: DOES_NOT_FIT against the period; otherwise one entry at the tail. -/
theorem test_laneSet : answer (after (.laneSet 0 1 3 4000 0 0 0 0) held) = (.doesNotFit, []) ∧
    (after (.laneSet 0 1 3 3999 4000 0 0 0) held).commits.length = 4 := by decide +kernel

/-- P0's group open, with one held entry for each target. -/
def grouped : State :=
  setSession 0 { openSession with groupOpen := true }
    { held with commits := [entry 0 (.laneSet 0 (window noLines)) true, entry 0 (.sampleAdd 0) true,
                            entry 0 (.sampleRemove 2) true] }

theorem test_groupBegin : (after (.groupBegin 0 1) held).sessions[(0 : Port)].groupOpen = true ∧
    answer (after (.groupBegin 0 1) grouped) = (.busy, []) := by decide +kernel

/-- 5.7: released 3. -/
theorem test_groupEnd : answer (after (.groupEnd 0 1) grouped) = (.ok, [3#8]) ∧
    (after (.groupEnd 0 1) grouped).commits.all (fun e => e.released && !e.held) = true := by decide +kernel

theorem test_groupCancel : answer (after (.groupCancel 0 1) grouped) = (.ok, [3#8]) ∧
    (after (.groupCancel 0 1) grouped).slots[(2 : Slot)].map (·.state) = some .live := by decide +kernel

/-- 6.10: the lowest EMPTY slot is taken. -/
theorem test_sampleAdd : answer (after (.sampleAdd 0 1 0 5 0 0 0 20 9) held) = (.ok, [4#8]) ∧
    answer (after (.sampleAdd 0 1 4000 5 0 0 0 20 9) held) = (.doesNotFit, []) := by decide +kernel

theorem test_sampleRemove : answer (after (.sampleRemove 0 1 1) held) = (.ok, [3#8]) ∧
    answer (after (.sampleRemove 0 1 3) held) = (.notOwner, []) := by decide +kernel

/-- P0's queues with five results and two events, and both tallies up. -/
def queued : State :=
  let d : Delivery :=
    { results := List.replicate 5 ((request none 0 0).record .aborted)
      events := List.replicate 2 { event := .timebaseStarted, seq := 9, lostBefore := 0 }
      lostResults := 2
      lostEvents := 1 }
  { live with delivery := live.delivery.set 0 d }

/-- 8.10: count 4, left 1, lost 2. -/
theorem test_readResults : (answer (after (.readResults 0 1 4) queued)).2.take 3 = [4#8, 1#8, 2#8] ∧
    (after (.readResults 0 1 4) queued).delivery[(0 : Port)].lostResults = 2 := by decide +kernel

/-- R131: a read may be taken between a boundary and one of its responses. -/
theorem test_readEvents : (after (.readEvents 0 1 1) (withDue { Due.none with resume := true } queued)).due.resume = true ∧
    answer (after (.readEvents 0 1 1) queued) = (.ok, [1#8, 1#8, 1#8, 0#8, 0#8, 9#8, 0#8]) := by
  decide +kernel

/-- 9.11: an ORPHANED line is taken over with its settings. -/
theorem test_tripClaim : answer (after (.tripClaim 0 1 2) held) = (.ok, [0#8, 1#8]) ∧
    (after (.tripClaim 0 1 2) held).trips[(2 : Line)].settings.qualify = 4 := by decide +kernel

/-- 9.11: IN_USE while an ORPHANED lane names the line. -/
theorem test_tripRelease : answer (after (.tripRelease 0 1 1) held) = (.inUse, []) ∧
    answer (after (.tripRelease 0 1 1) (setLane 4 .free .fresh held)) = (.ok, [0#8, 2#8]) := by decide +kernel

theorem test_tripSet : answer (after (.tripSet 0 1 1 0 8 0) held) = (.ok, [2#8]) ∧
    answer (after (.tripSet 0 1 2 0 8 0) held) = (.notOwner, []) := by decide +kernel

/-- 9.10: STILL_ASSERTED with the line, then OK once it is out of force. -/
theorem test_tripRearm : answer (after (.tripRearm 0 1 2) held) = (.stillAsserted, [2#8]) ∧
    answer (after (.tripRearm 0 1 3) (setTrip 1 TripLine.reset held)) = (.ok, [0#8, 2#8]) := by decide +kernel

/-- 10.9: id, electorate, OPEN. -/
theorem test_propose :
    answer (after (.propose 0 1 5000 0 0 10) { held with agreement := { proposal := none, nextId := 7 } })
      = (.ok, [7#8, 3#8, 0#8]) ∧
    answer (after (.propose 0 1 63 0 0 10) held) = (.range, []) := by decide +kernel

theorem test_vote :
    answer (after (.vote 0 1 7 0) (withProposal (proposal (single 1) .opened .free 9) live)) = (.ok, [1#8]) ∧
    answer (after (.vote 0 1 7 0) (withProposal (proposal (single 0) .opened .free 9) live)) = (.alreadyVoted, []) := by
  decide +kernel

theorem test_withdraw :
    (after (.withdraw 0 1 7) (withProposal (proposal (single 0) .opened .free 9) live)).agreement.proposal = none ∧
    answer (after (.withdraw 0 1 6) (withProposal (proposal (single 0) .opened .free 9) live)) = (.noProposal, []) := by
  decide +kernel

/-! ### Witnesses: for each statement with hypotheses, states and operands that meet them

Where a statement has several clauses, its witness meets each of them, at the ends of its range. -/

theorem witness_CommandsLeaveTheQueue : exec .wrap live = .next (after .wrap live) := rfl

/-- A part in reset with P0's SELn low. -/
def inReset : State := after .partReset (after (.transactionBegin 0) live)

theorem witness_PartResetAndRelease : (after (.transactionBegin 0) live).links[(0 : Port)].selLow = true := by
  decide +kernel

theorem witness_NothingHappensInReset : inReset.inReset = true ∧ (∀ p : Port, inReset.links[p].active = false) ∧
    Instr.nop 0 1 ≠ .partReset ∧ Instr.nop 0 1 ≠ .resetRelease := by decide +kernel

theorem witness_NothingHappensInReset_next : exec (.nop 0 1) inReset = .next (after (.nop 0 1) inReset) := rfl

theorem witness_TickAdvances : live.inReset = false ∧ atBoundary.inReset = false ∧ OwesNothing live ∧ OwesNothing (withTb .locked .follow 3999 live) ∧
    OwesNothing { live with tickStamp := 4294967295 } ∧ OwesNothing State.reset := by decide +kernel

/-- A state whose wrap is due. -/
def wrapping (state : TbState) : State :=
  withDue { Due.none with wrap := true }
    (withTb state (if state = .free then .free else .follow) 3999 { live with tb := { live.tb with seq := 65535 } })

theorem witness_WrapMakesABoundary :
    (Awake (wrapping .free) ∧ (wrapping .free).due.wrap = true ∧ running (wrapping .free) = true) ∧
    (Awake (wrapping .locked) ∧ (wrapping .locked).due.wrap = true ∧ running (wrapping .locked) = true) := by
  decide +kernel

theorem witness_WrapMakesABoundary_not_due : Awake live ∧ live.due.wrap = false := by decide +kernel

/-- Every port OPEN and the timebase STOPPED under a source. -/
def stopped (source : Source) : State := withTb .stopped source 17 live

theorem witness_TbStart : (Ready live 0 ∧ Quiet live ∧ running live = true) ∧
    (Ready (stopped .free) 3 ∧ Quiet (stopped .free) ∧ (stopped .free).tb.state = .stopped) ∧
    (Ready (stopped .follow) 3 ∧ Quiet (stopped .follow) ∧ (stopped .follow).tb.state = .stopped) := by decide +kernel

/-- A proposal of P0 in a running part that no port holds anything of. -/
def voting : State := withProposal (proposal (single 0) .opened .free 9) live

theorem witness_TbStop : (Ready (stopped .free) 0 ∧ Quiet (stopped .free) ∧ (stopped .free).tb.state = .stopped) ∧
    Quiet held ∧ Quiet voting ∧ Quiet live ∧
    (Ready held 0 ∧ running held = true ∧ (1 : Port) ≠ 0 ∧ held.lanes[(2 : Lane)].status.owner? = some 1) ∧
    (Ready voting 0 ∧ running voting = true ∧ voting.agreement.proposal.isSome = true ∧
      ∀ q : Port, bound voting q = false) ∧
    (Ready live 0 ∧ running live = true ∧ live.agreement.proposal = none ∧ ∀ q : Port, bound live q = false) := by
  decide +kernel

/-- L0 LEASED, its window wrapping past the end of the frame. -/
def wrapped (counter : Nat) : State :=
  withTb .free .free counter (setLane 0 (.leased 0) { window noLines with onAt := 3900, length := 200 } live)

theorem witness_OutputPins : (running (wrapped 99) = true ∧ (wrapped 99).tb.counter < (wrapped 99).tb.period ∧
      (wrapped 99).lanes[(0 : Lane)].settings.onAt < (wrapped 99).tb.period ∧
      (wrapped 99).lanes[(0 : Lane)].settings.length ≤ (wrapped 99).tb.period) ∧
    laneDrive (wrapped 99) 0 = .high ∧ laneDrive (wrapped 100) 0 = .low ∧ laneDrive (wrapped 3900) 0 = .high ∧
    running (withTb .stopped .free 99 (wrapped 99)) = false ∧ (wrapped 99).links[(0 : Port)].active = false ∧
    (received [] 3).links[(0 : Port)].active = true ∧ sdo (received [] 3) 0 = .low := by decide +kernel

/-- A LOCKED timebase at a counter, with an edge due. -/
def edgeAt (state : TbState) (counter : Nat) : State :=
  withDue { Due.none with edge := true } (withTb state .follow counter live)

def edgeReady (s : State) : Bool :=
  decide (Awake s) && s.due.edge && !s.due.wrap && decide (s.tb.window ≤ s.tb.period / 8) &&
    decide (s.tb.counter < s.tb.period)

/-- The five ranges of an edge in LOCKED with P 4000 and W 16: 0, 1 to 15 with and without the grace, 16 to 3983, 3984 to
3999. -/
theorem witness_EdgeInLocked :
    ([0, 1, 15, 16, 3983, 3984, 3999].all fun c => edgeReady (edgeAt .locked c)) = true ∧
    (withGrace (edgeAt .locked 15)).sync.grace = true ∧ (edgeAt .locked 15).sync.grace = false ∧
    (edgeAt .locked 0).tb.window = 16 ∧ (edgeAt .locked 0).tb.period = 4000 ∧
    (edgeAt .locked 0).tb.state = .locked := by decide +kernel

theorem witness_EdgeLocks :
    ([0, 1, 3999].all fun c => edgeReady (edgeAt .acquiring c) && edgeReady (edgeAt .coasting c)) = true ∧
    edgeReady (edgeAt .free 0) = true ∧ (edgeAt .stopped 0).tb.state = .stopped ∧
    (after .syncEdge (regaining 999)).due.locked = some true ∧ (after .syncEdge (regaining 999)).inReset = false ∧
    (∀ q : Port, (regaining 0).sessions[q].counted.lapses = false) ∧
    (regaining 999).sessions[(0 : Port)].counted.lapses = true ∧ Awake (regaining 999) ∧ Awake live ∧
    live.due.edge = false ∧
    (let s := withDue { Due.none with edge := true, wrap := true } (withTb .coasting .follow 3999 live)
     s.due.edge = true ∧ s.due.wrap = true ∧ s.due.locked = none ∧ running s = true) := by decide +kernel

/-- The counter at W in LOCKED, the grace open, after some slips. -/
def expiring (slip : Nat) : State := withGrace (withTb .locked .follow 16 { live with sync := { live.sync with slip := slip } })

theorem witness_GraceRunsOut : Awake (expiring 2) ∧ (expiring 2).tb.state = .locked ∧
    (expiring 2).sync.grace = true ∧ (expiring 2).tb.counter = (expiring 2).tb.window ∧ (expiring 2).sync.slip < 3 ∧
    (expiring 3).sync.slip = 3 ∧ live.tb.state ≠ .locked := by decide +kernel

theorem witness_entriesSound : EntriesSound held := by
  refine ⟨?_, by decide +kernel, by decide +kernel⟩
  intro e he
  have : e ∈ [entry 0 (.laneSet 0 (window noLines)) false, entry 0 (.sampleAdd 0) false,
    entry 0 (.sampleRemove 2) false] := he
  simp only [List.mem_cons, List.not_mem_nil, or_false] at this
  obtain rfl | rfl | rfl := this
  · show held.lanes[(0 : Lane)].status.owner? = some 0
    decide +kernel
  · exact ⟨slot .staged 0 0 .once, by decide +kernel, rfl, rfl⟩
  · exact ⟨slot .retiring 0 70 .once, by decide +kernel, rfl, rfl⟩

theorem witness_entriesSound_several : EntriesSound several := by
  refine ⟨?_, by decide +kernel, by decide +kernel⟩
  intro e he
  have : e ∈ [entry 0 (.laneSet 3 (window (single 1))) false, entry 0 (.sampleAdd 0) false,
    entry 0 (.laneSet 0 (window (single 1))) false, entry 0 (.laneSet 3 (window noLines)) false,
    entry 0 (.sampleRemove 2) false, entry 0 (.laneSet 3 (window (single 1))) false] := he
  simp only [List.mem_cons, List.not_mem_nil, or_false] at this
  have h0 : several.lanes[(0 : Lane)].status.owner? = some 0 := by decide +kernel
  have h3 : several.lanes[(3 : Lane)].status.owner? = some 0 := by decide +kernel
  obtain rfl | rfl | rfl | rfl | rfl | rfl := this
  · exact h3
  · exact ⟨slot .staged 0 0 .once, by decide +kernel, rfl, rfl⟩
  · exact h0
  · exact h3
  · exact ⟨slot .retiring 0 70 .once, by decide +kernel, rfl, rfl⟩
  · exact h3

/-- The commit list's response to a boundary is due. -/
def applying (s : State) : State := withDue { Due.none with commit := true } s

theorem witness_CommitListApplies : Awake (applying held) ∧ (applying held).due.commit = true ∧
    EntriesSound (applying held) ∧ ConverterFits (applying held) ∧ inForce (applying held) 1 = true ∧
    held.due.commit = false ∧
    Awake (applying several) ∧ EntriesSound (applying several) ∧ ConverterFits (applying several) :=
  ⟨⟨rfl, rfl⟩, rfl, witness_entriesSound, by decide +kernel, by decide +kernel, rfl, ⟨rfl, rfl⟩,
    witness_entriesSound_several, by decide +kernel⟩

/-- One LANE_SET of P0 for a lane, with a mask. -/
def setting (l : Lane) (mask : LineSet) : State :=
  applying { held with commits := [entry 0 (.laneSet l (window mask)) false] }

theorem witness_LaneSetApplied : Awake (setting 3 noLines) ∧ (setting 3 noLines).due.commit = true ∧
    (setting 3 noLines).groupReport = Vector.replicate 4 false ∧
    (setting 3 noLines).sessions[(0 : Port)].state = .opened ∧
    (setting 3 noLines).lanes[(3 : Lane)].status = .leased 0 ∧ anyInForce (setting 3 noLines) noLines = false ∧
    anyInForce (setting 3 (single 1)) (single 1) = true ∧
    (setting 1 (single 1)).lanes[(1 : Lane)].status = .tripped 0 (single 1) false := by decide +kernel

theorem witness_LanesResume : Awake held ∧ held.due.resume = false ∧
    (withDue { Due.none with resume := true } held).due.resume = true := by decide +kernel

theorem witness_PortLapses : held.inReset = false ∧ held.sessions[(0 : Port)].lapses = false ∧
    (let s := setSession 0 { openSession with silenceCount := some 1000 } held
     s.sessions[(0 : Port)].state = .opened ∧ s.sessions[(0 : Port)].silenceLimit = some 1000 ∧
      s.sessions[(0 : Port)].silenceCount = some 1000) ∧
    (after .syncEdge (regaining 999)).due.locked = some true := by decide +kernel

/-- The agreement unit's response is due, with an ACCEPTED proposal. -/
def committing (state : TbState) (source : Source) (new : NewSource) : State :=
  withDue { Due.none with agreement := true }
    (withTb state source 0 (withProposal (proposal (insertId (single 0) 1) .accepted new 4) live))

theorem witness_ProposalCommits : Awake (committing .free .free .free) ∧
    (committing .free .free .free).due.agreement = true ∧ (committing .free .free .free).tb.state = .free ∧
    (committing .free .free (.follow 255)).tb.source = .free ∧ (committing .locked .follow .free).tb.source = .follow ∧
    (committing .stopped .follow (.follow 1)).agreement.proposal =
      some (proposal (insertId (single 0) 1) .accepted (.follow 1) 4) := by decide +kernel

/-- The wrap is due, with an OPEN proposal that has some frames left. -/
def counting (left : Nat) : State := withProposal (proposal (single 0) .opened .free left) (wrapping .free)

theorem witness_ProposalCountsDown : Awake (counting 1) ∧ (counting 1).due.wrap = true ∧
    running (counting 1) = true ∧ (counting 1).agreement.proposal = some (proposal (single 0) .opened .free 1) ∧
    (counting 2).agreement.proposal = some (proposal (single 0) .opened .free 2) ∧
    (let s := withDue { Due.none with agreement := true } (counting 0)
     Awake s ∧ s.due.agreement = true ∧ s.agreement.proposal = some (proposal (single 0) .opened .free 0)) ∧
    (counting 1).due.agreement = false ∧ live.agreement.proposal = none := by decide +kernel

/-- A conversion in flight for some ticks, and a full queue behind it. -/
def converting (elapsed : Nat) : State :=
  { held with conv := { inFlight := some { request := request (some 0) 255 0, wait := 0, capture := 4095, elapsed := elapsed }
                        queue := List.replicate 8 (request (some 1) 0 0) } }

theorem witness_SlotsFire : (Awake held ∧ ConverterFits held ∧ slotDue held 3 = true) ∧
    (ConverterFits (converting 7) ∧ slotDue (converting 7) 3 = true) ∧
    (Awake atBoundary ∧ ConverterFits atBoundary ∧ slotDue atBoundary 9 = true) := by
  decide +kernel

theorem witness_ConversionCompletes : Awake held ∧ held.conv.inFlight = none ∧
    ((converting 39).conv.inFlight.map fun c => decide (c.elapsed < 40)) = some true ∧
    ((converting 40).conv.inFlight.map fun c => decide (40 ≤ c.elapsed)) = some true := by decide +kernel

/-- S0 at offset 0, S1 at offset 60 and S3 at offset 3999, with an edge due at a counter. -/
def cut (state : TbState) (counter : Nat) : State :=
  setSlot 0 (slot .live 0 0 .every) <| setSlot 3 (slot .live 1 3999 .every) (setSlot 1 (slot .live 0 60 .every) (edgeAt state counter))

theorem witness_ShortFrameRecords : edgeReady (cut .acquiring 1) = true ∧ edgeReady (cut .coasting 3999) = true ∧
    edgeReady (cut .locked 3984) = true ∧ (cut .locked 3984).tb.period ≤ 3984 + (cut .locked 3984).tb.window ∧
    ConverterFits (cut .locked 3984) ∧ (cut .locked 3984).due.cut = [] := by decide +kernel

theorem witness_TripSampleJudged : Awake live ∧ live.due.trip[(0 : Line)] = false ∧
    (sampled true .idle 0 held).due.trip[(0 : Line)] = true ∧
    (sampled true .qualifyingOn 6 held).trips[(0 : Line)].qualifyCount + 1 < 8 ∧
    (sampled true .qualifyingOn 7 held).trips[(0 : Line)].qualifyCount + 1 = 8 := by decide +kernel

/-- T0 with qualify 0, its sample due. -/
def direct (high : Bool) (detect : Detect) : State :=
  setTrip 0 (line (.owned 0) 0 .follow detect 0 (single 0)) (sampled high detect 0 held)

theorem witness_LineAsserts :
    (let s := direct true .idle
     Awake s ∧ s.due.trip[(0 : Line)] = true ∧
      (s.trips[(0 : Line)].settings.polarity = .activeHigh ↔ s.pins.trip[(0 : Line)] = true) ∧
      s.trips[(0 : Line)].detect = .idle ∧ s.trips[(0 : Line)].settings.qualify = 0) ∧
    (let s := sampled true .qualifyingOn 7 held
     s.trips[(0 : Line)].detect = .qualifyingOn ∧
      s.trips[(0 : Line)].settings.qualify ≤ s.trips[(0 : Line)].qualifyCount + 1) := by decide +kernel

theorem witness_LineDeasserts :
    (let s := direct false .asserted
     Awake s ∧ s.due.trip[(0 : Line)] = true ∧
      (s.trips[(0 : Line)].settings.polarity = .activeHigh ↔ s.pins.trip[(0 : Line)] = false) ∧
      s.trips[(0 : Line)].detect = .asserted ∧ s.trips[(0 : Line)].settings.qualify = 0) ∧
    (let s := sampled false .qualifyingOff 7 held
     s.trips[(0 : Line)].detect = .qualifyingOff ∧
      s.trips[(0 : Line)].settings.qualify ≤ s.trips[(0 : Line)].qualifyCount + 1) := by decide +kernel

theorem witness_TransactionBytes : live.inReset = false ∧ live.links[(0 : Port)].selLow = false ∧
    live.links[(0 : Port)].active = false ∧ (received [] 0).links[(0 : Port)].active = true ∧
    (received (List.replicate 28 0x01#8) 28).links[(0 : Port)].active = true := by decide +kernel

/-- A buffer for each outcome: idle, short by one byte, a wrong CRC, an unknown code, a wrong length. -/
theorem witness_TransactionEndWithoutRequest : (received [0x00#8] 4).links[(0 : Port)].active = true ∧
    judgeBuffer [] = .noRequest ∧ judgeBuffer [0x00#8, 0x01#8] = .noRequest ∧
    judgeBuffer [0x02#8] = .linkError 0 .short ∧ judgeBuffer [0x02#8, 0x05#8] = .linkError 5 .short ∧
    judgeBuffer [0x20#8, 0x05#8, 0x01#8, 0x00#8] = .linkError 5 .short ∧
    judgeBuffer [0x20#8, 0x05#8, 0x00#8, 0xFF#8] = .linkError 5 .crc ∧
    judgeBuffer [0x05#8, 0x05#8, 0x00#8, crc8 [0x05#8, 0x05#8, 0x00#8]] = .unknown 5 ∧
    judgeBuffer [0x20#8, 0x05#8, 0x00#8, crc8 [0x20#8, 0x05#8, 0x00#8]] = .badLength 5 1 := by decide +kernel

theorem witness_FramesReadBack : (Request.laneSet 255 65535 65535 255 255 255).wellFormed = true ∧ 255 < 256 := by decide

theorem witness_TransactionCarriesTheRequest : (Request.nop).wellFormed = true ∧ live.inReset = false ∧
    live.links[(0 : Port)].selLow = false := by decide +kernel

def inState (state : SessionState) : State := setSession 0 { openSession with state := state } live

/-- P0's lapse is due, and the trip monitor's response. -/
def lapsing : State :=
  withDue { Due.none with resume := true } (setSession 0 { openSession with silenceCount := some 1000 } held)

theorem witness_SessionCheck : (Quiet (inState .closed) ∧ (inState .closed).sessions[(0 : Port)].state = .closed) ∧
    (Quiet (inState .lapsed) ∧ (inState .lapsed).sessions[(0 : Port)].state = .lapsed) ∧
    Request.tbStart ≠ .nop ∧ (inState .lapsed).inReset = false ∧ lapsing.inReset = false ∧
    lapsing.sessions[(0 : Port)].lapses = true ∧ lapsing.due.resume = true ∧ lapsing.due.locked = none := by
  decide +kernel

theorem witness_RefusedChangesNothing : Hears held 0 ∧ Quiet held ∧
    (after ((Request.laneSet 3 4000 0 0 0 0).toInstr 0 1) held).links[(0 : Port)].held.status ≠ .ok := by decide +kernel

theorem witness_RefusedChangesNothing_next : exec ((Request.laneSet 3 4000 0 0 0 0).toInstr 0 1) held
    = .next (after ((Request.laneSet 3 4000 0 0 0 0).toInstr 0 1) held) := rfl

/-- Limits 0, 1, 65535, 65536 and thresholds 0, 1, 16, 17, in the three session states. -/
theorem witness_SessionOpens : Hears live 0 ∧ live.sessions[(0 : Port)].state = .opened ∧
    Hears (inState .closed) 0 ∧ Hears (inState .lapsed) 0 := by decide +kernel

theorem witness_NopAnswers : Hears State.reset 3 ∧ Hears live 0 := by decide +kernel

theorem witness_StatusReports : Hears State.reset 3 ∧ Hears held 0 ∧ Hears voting 0 := by decide +kernel

/-- P0's lines: T0, which no other port's lane names, and T1, which L2 of P1 names. -/
def closing : State := setLane 2 (.leased 1) (window (single 1)) held

/-- P0's line T0 in force, with P1 informed, and a proposal of P0. -/
def freeing : State :=
  withProposal (proposal (single 0) .opened .free 9)
    (setTrip 0 (line (.owned 0) 0 .latch .asserted 0 (insertId (single 0) 1)) closing)

theorem witness_SessionCloses : Ready closing 0 ∧ closing.trips[(0 : Line)].ownership = .owned 0 ∧
    closing.trips[(1 : Line)].ownership = .owned 0 ∧ closing.lanes[(2 : Lane)].settings.tripMask[(1 : Line)] = true ∧
    closing.lanes[(2 : Lane)].status.owner? = some 1 ∧ closing.trips[(2 : Line)].ownership ≠ .owned 0 ∧
    closing.sessions[(1 : Port)].state = .opened ∧ inForce closing 0 = false ∧
    (Ready freeing 0 ∧ inForce freeing 0 = true ∧ freeing.trips[(0 : Line)].informed[(1 : Port)] = true ∧
      freeing.agreement.proposal.map (·.proposer) = some 0) := by decide +kernel

/-- A FREE lane, an ORPHANED one with and without a line in force, the requester's and another port's. -/
theorem witness_LaneLease : Ready held 0 ∧ held.lanes[(15 : Lane)].status = .free ∧
    held.lanes[(4 : Lane)].status = .orphaned ∧ anyInForce held held.lanes[(4 : Lane)].settings.tripMask = true ∧
    anyInForce (setTrip 1 TripLine.reset held) held.lanes[(4 : Lane)].settings.tripMask = false ∧
    held.lanes[(0 : Lane)].status = .leased 0 ∧ held.lanes[(2 : Lane)].status = .leased 1 ∧
    held.lanes[(1 : Lane)].status = .tripped 0 (single 1) false := by decide +kernel

theorem witness_LaneRelease : Ready held 0 ∧ held.lanes[(0 : Lane)].status.owner? = some 0 ∧
    held.lanes[(15 : Lane)].status.owner? ≠ some 0 := by decide +kernel

/-- A commit list of some entries of a port. -/
def filled (n : Nat) (p : Port) (s : State) : State :=
  { s with commits := List.replicate n (entry p (.laneSet 3 (window noLines)) false) }

theorem witness_LaneSet : Ready held 0 ∧ held.lanes[(3 : Lane)].status.owner? = some 0 ∧ held.tb.period = 4000 ∧
    held.agreement.proposal = none ∧ (Ready (filled 24 1 held) 0 ∧ 24 ≤ (filled 24 1 held).commits.length) ∧
    (Ready (filled 12 0 held) 0 ∧ (filled 12 0 held).commits.length < 24 ∧
      12 ≤ ((filled 12 0 held).commits.countP fun e => decide (e.port = 0))) ∧
    ((filled 11 0 held).commits.countP fun e => decide (e.port = 0)) < 12 := by decide +kernel

theorem witness_EditGroups : (Ready held 0 ∧ held.sessions[(0 : Port)].groupOpen = false) ∧
    (Ready grouped 0 ∧ grouped.sessions[(0 : Port)].groupOpen = true) := by decide +kernel

/-- Every slot taken. -/
def crowded : State := { held with slots := Vector.replicate 32 (some (slot .live 1 3999 .every)) }

theorem witness_SampleAdd : (Ready crowded 0 ∧ ∀ i : Slot, crowded.slots[i].isSome = true) ∧
    (Ready held 0 ∧ held.slots[(4 : Slot)] = none ∧ (∀ j : Slot, j < 4 → held.slots[j].isSome = true)) ∧
    (Ready (filled 24 1 held) 0 ∧ (filled 24 1 held).slots[(4 : Slot)] = none) ∧
    (Ready (filled 12 0 held) 0 ∧ (filled 12 0 held).slots[(4 : Slot)] = none) := by decide +kernel

theorem witness_SampleRemove : Ready held 0 ∧ held.slots[(31 : Slot)] = none ∧
    held.slots[(0 : Slot)] = some (slot .staged 0 0 .once) ∧ held.slots[(1 : Slot)] = some (slot .live 0 60 .every) ∧
    held.slots[(2 : Slot)] = some (slot .retiring 0 70 .once) ∧ held.slots[(3 : Slot)] = some (slot .live 1 100 .every) ∧
    Ready (filled 24 1 held) 0 ∧ Ready (filled 12 0 held) 0 := by decide +kernel

theorem witness_QueuesRead : Ready queued 0 ∧ queued.delivery[(0 : Port)].results.length = 5 ∧
    queued.delivery[(0 : Port)].events.length = 2 := by decide +kernel

theorem witness_TripClaim : Ready held 0 ∧ held.trips[(3 : Line)].ownership = .free ∧
    held.trips[(2 : Line)].ownership = .orphaned ∧ held.trips[(0 : Line)].ownership = .owned 0 ∧ Ready held 1 := by
  decide +kernel

theorem witness_TripRelease : Ready held 0 ∧ held.trips[(2 : Line)].ownership ≠ .owned 0 ∧
    (held.trips[(1 : Line)].ownership = .owned 0 ∧ held.lanes[(4 : Lane)].status.owner? ≠ some 0 ∧
      held.lanes[(4 : Lane)].settings.tripMask[(1 : Line)] = true) ∧
    (held.trips[(0 : Line)].ownership = .owned 0 ∧
      ∀ l : Lane, held.lanes[l].status.owner? = some 0 ∨ held.lanes[l].settings.tripMask[(0 : Line)] = false) := by
  decide +kernel

theorem witness_TripSet : Ready held 0 ∧ held.trips[(2 : Line)].ownership ≠ .owned 0 ∧
    held.trips[(1 : Line)].ownership = .owned 0 := by decide +kernel

/-- The sets of L0 and L1 (3), of L1 (2) and of L15 (32768). -/
theorem witness_TripRearm : Ready held 0 ∧ 65535 < 65536 ∧ held.lanes[(15 : Lane)].status.owner? ≠ some 0 ∧
    held.lanes[(0 : Lane)].status.owner? = some 0 ∧ held.lanes[(1 : Lane)].status.owner? = some 0 ∧
    inForce held 1 = true ∧ inForce (setTrip 1 TripLine.reset held) 1 = false ∧
    Ready (setTrip 1 TripLine.reset held) 0 := by decide +kernel

theorem witness_Propose : (Ready held 0 ∧ running held = true ∧ held.agreement.proposal = none ∧
      everythingFits held 5000 = true ∧ everythingFits held 500 = false) ∧
    (Ready (stopped .free) 0 ∧ (stopped .free).tb.state = .stopped) ∧
    (Ready voting 0 ∧ running voting = true ∧ voting.agreement.proposal.isSome = true) := by decide +kernel

theorem witness_VoteAndWithdraw : Ready voting 0 ∧ Ready voting 1 ∧ Ready voting 2 ∧
    voting.agreement.proposal = some (proposal (single 0) .opened .free 9) ∧
    (proposal (single 0) .opened .free 9).electorate[(1 : Port)] = true ∧
    (proposal (single 0) .opened .free 9).accepted[(1 : Port)] = false ∧
    (proposal (single 0) .opened .free 9).electorate[(2 : Port)] = false ∧
    (proposal (single 0) .opened .free 9).accepted[(0 : Port)] = true ∧ Ready live 0 ∧
    live.agreement.proposal = none := by decide +kernel

/-- The state of the statements over every sound state: P0 and P1 hold something of every kind. -/
def waiting : State := { held with pending := [.slotFire, .wrap] }

theorem witness_trips : ∀ l : Lane, laneSound waiting l := by
  intro l
  unfold laneSound
  split
  · rename_i h
    revert h
    revert l
    decide +kernel
  · rename_i h
    have key : ∀ l : Lane, waiting.lanes[l].status.cause = IdSet.none 4 →
        (decide (waiting.lanes[l].status = .leased 0) || decide (waiting.lanes[l].status = .leased 1)) = true →
        ∀ t : Line, waiting.lanes[l].settings.tripMask[t] = true → inForce waiting t = false := by decide +kernel
    have owner : ∀ l : Lane, waiting.lanes[l].status.owner? ≠ some 2 ∧ waiting.lanes[l].status.owner? ≠ some 3 := by
      decide +kernel
    have first : ∀ q : Port, some q ≠ some (2 : Port) ∧ some q ≠ some (3 : Port) →
        (decide (LaneStatus.leased q = .leased 0) || decide (LaneStatus.leased q = .leased 1)) = true := by decide
    have mine := owner l
    rw [h] at mine
    exact key l (by rw [h]; rfl) (by rw [h]; exact first _ mine)
  · rename_i p cause rearm h
    have key : ∀ l : Lane, waiting.lanes[l].status.owner? ≠ none → waiting.lanes[l].status ≠ .leased 0 →
        waiting.lanes[l].status ≠ .leased 1 → ∀ t : Line,
        (waiting.lanes[l].status.cause[t] = true → waiting.lanes[l].settings.tripMask[t] = true) ∧
          (waiting.lanes[l].settings.tripMask[t] = true → inForce waiting t = true →
            waiting.lanes[l].status.cause[t] = true ∧ waiting.lanes[l].status.rearm = false) := by decide +kernel
    have := key l (by rw [h]; simp [LaneStatus.owner?]) (by rw [h]; simp) (by rw [h]; simp)
    rw [h] at this
    exact this
  · trivial

theorem witness_fits : FitsPeriod waiting 4000 := by
  refine ⟨by decide +kernel, by decide +kernel, ?_⟩
  intro e he
  have : e ∈ [entry 0 (.laneSet 0 (window noLines)) false, entry 0 (.sampleAdd 0) false,
    entry 0 (.sampleRemove 2) false] := he
  simp only [List.mem_cons, List.not_mem_nil, or_false] at this
  obtain rfl | rfl | rfl := this
  · exact ⟨by decide, by decide⟩
  · trivial
  · trivial

/-- For the eight statements that a step keeps a part of Sound. -/
theorem witness_Sound : Sound waiting := by
  refine ⟨?_, ?_, ?_, ⟨witness_trips, ?_, ?_⟩, witness_entriesSound, ⟨witness_fits, ?_⟩, ?_, rfl⟩
  · unfold Bounded; decide +kernel
  · unfold FrameSound; decide +kernel
  · refine ⟨by decide +kernel, ?_, fun h => absurd rfl h⟩
    have : ∀ p : Port, waiting.sessions[p].state = .opened := by decide +kernel
    exact fun p h => absurd (this p) h
  · unfold lineSound; decide +kernel
  · decide +kernel
  · intro pr h; cases h
  · exact ⟨by decide, fun pr h => by cases h⟩

theorem witness_step : step waiting = .next (after .slotFire { waiting with pending := [.wrap] }) := rfl

theorem witness_OnlyAStopStops : running live = true ∧ running (after (.tbStop 0 1) live) = false := by decide +kernel

theorem witness_OnlyAStopStops_next : exec (.tbStop 0 1) live = .next (after (.tbStop 0 1) live) := rfl

theorem witness_OnlyTheProposalChangesThePeriod : (after .proposalCommit (committing .free .free (.follow 16))).tb.period
    = 5000 ∧ Instr.proposalCommit ≠ .partReset := by decide +kernel

theorem witness_OnlyTheProposalChangesThePeriod_next : exec .proposalCommit (committing .free .free (.follow 16))
    = .next (after .proposalCommit (committing .free .free (.follow 16))) := rfl

theorem witness_LinksAreIndependent : exec (.nop 0 1) live = .next (after (.nop 0 1) live) ∧
    (∀ r tag, Instr.nop 0 1 ≠ Request.toInstr 1 tag r) :=
  ⟨rfl, by intro r tag; cases r <;> simp [Request.toInstr]⟩

end Sys2Proof.Tests
end

section
/-! SUPPORT. Requests of a port that hears: the state such a request is judged on and the response held for it, and what
`nop` answers (spec/03 3.4, R38, R40). -/

namespace Sys2Proof.Machine

/-- Out of reset, what a command does is not cut off by the reset. -/
theorem whileRunning_of_awake (f : State → State) (s : State) (h : Awake s) : whileRunning f s = f s := by
  obtain ⟨hreset, -⟩ := h
  simp [whileRunning, hreset]

/-- The silence reset of a request (R38), whatever the session state: it reaches an OPEN port only. -/
theorem hear_eq_heardIfOpen (p : Port) (s : State) : hear p s = heardIfOpen p s := by
  unfold heardIfOpen
  split
  case isTrue hopen => exact hear_of_open p s hopen
  case isFalse hopen => exact hear_of_not_open p s hopen

/-- A request of a port that hears, from its command's verdict: the command is judged on the state with the silence
reset, and its status and payload are the reply. -/
theorem takeRequest_of_verdict {p : Port} {tag : Nat} {cmd : Option Nat → Command} {s t : State} {st : Status}
    {bytes : List Byte} (h : Hears s p)
    (hcmd : cmd s.sessions[p].silenceCount (heardIfOpen p s) = (t, { status := st, payload := bytes })) :
    whileRunning (takeRequest p tag cmd) s = replied p tag st bytes t := by
  obtain ⟨hawake, hlapse⟩ := h
  rw [whileRunning_of_awake _ s hawake, takeRequest_eq p tag cmd s hawake.2 hlapse, hear_eq_heardIfOpen, hcmd]
  exact hold_eq_replied p tag st bytes t

/-- The row of `nop`. -/
theorem exec_nop (p : Port) (tag : Nat) (s : State) :
    exec (.nop p tag) s = .next (whileRunning (takeRequest p tag fun _ => cmdNop) s) := rfl

/-- The verdict of `nop` is OK with no payload and leaves the state as it is, in every session state (R40). -/
theorem cmdNop_eq (s : State) : cmdNop s = (s, { status := .ok, payload := [] }) := rfl

/-- Settles O34: the session state enters only through the silence reset, which `hear_eq_heardIfOpen` covers. -/
theorem nopAnswers : Obligations.NopAnswers := by
  intro p tag s hears
  rw [exec_nop, takeRequest_of_verdict hears (cmdNop_eq (heardIfOpen p s))]

end Sys2Proof.Machine
end

section
/-! SUPPORT. Requests of a port whose session is OPEN: the verdict of a command under the session check, on the state
with the silence count at 0 (R37, R38), and the lane a number names (R173). -/

namespace Sys2Proof.Machine

/-- Hearing a port does not touch the state of its session. -/
theorem heard_sessions_self_state (p : Port) (s : State) :
    (heard p s).sessions[p].state = s.sessions[p].state := by
  simp [heard]

/-- A session command of a ready port, from its verdict: the session check lets it through, and its status and payload
are the reply. -/
theorem takeRequest_inSession_of_verdict {p : Port} {tag : Nat} {cmd : Command} {s t : State} {st : Status}
    {bytes : List Byte} (h : Ready s p) (hcmd : cmd (heard p s) = (t, { status := st, payload := bytes })) :
    whileRunning (takeRequest p tag fun _ => inSession p cmd) s = replied p tag st bytes t := by
  obtain ⟨hears, hopen⟩ := h
  have hheard : heardIfOpen p s = heard p s := if_pos hopen
  have hstill : (heard p s).sessions[p].state = .opened := (heard_sessions_self_state p s).trans hopen
  refine takeRequest_of_verdict hears ?_
  rw [hheard, inSession_of_open p cmd (heard p s) hstill, hcmd]

/-- A number of 16 or more names no lane. -/
theorem laneOf?_of_le {n : Nat} (h : 16 ≤ n) : laneOf? n = none := dif_neg (by omega)

/-- A lane's own number names it. -/
@[simp] theorem laneOf?_val (l : Lane) : laneOf? l.val = some l := dif_pos l.isLt

end Sys2Proof.Machine
end

section
/-! SUPPORT. Output lanes: what `lane_lease` answers and changes, by the lane's state (spec/04 R55 to R57). -/

namespace Sys2Proof.Machine

/-- A FREE lane is leased with fresh settings (R56). -/
theorem leaseLane_of_free {p : Port} {l : Lane} {s : State} (h : s.lanes[l].status = .free) :
    leaseLane p l s = okWith [1#8, 0#8]
      { s with lanes := s.lanes.set l { status := .leased p, settings := .fresh } } := by
  unfold leaseLane
  rw [h]
  rfl

/-- An ORPHANED lane is adopted: its settings are kept with length 0 (R57). -/
theorem leaseLane_of_orphaned {p : Port} {l : Lane} {s : State} (h : s.lanes[l].status = .orphaned) :
    leaseLane p l s = okWith (leaseAnswer (adoptedStatus s p s.lanes[l].settings.tripMask) true)
      { s with
        lanes := s.lanes.set l
          { status := adoptedStatus s p s.lanes[l].settings.tripMask
            settings := { s.lanes[l].settings with length := 0 } } } := by
  unfold leaseLane
  rw [h]

/-- A lane with an owner, LEASED or TRIPPED, stays as it is: its owner is told its state, another port its owner. -/
theorem leaseLane_of_owner {p q : Port} {l : Lane} {s : State} (h : s.lanes[l].status.owner? = some q) :
    leaseLane p l s =
      if q = p then okWith (leaseAnswer s.lanes[l].status false) s
      else (s, { status := .held, payload := [portByte q] }) := by
  unfold leaseLane
  generalize s.lanes[l].status = status at h ⊢
  cases status with
  | free => cases h
  | orphaned => cases h
  | leased r => cases h; rfl
  | tripped r cause rearm => cases h; rfl

/-- A line of a mask is in force exactly when the lines of the mask in force are not empty. -/
theorem anyInForce_iff {s : State} {mask : LineSet} :
    anyInForce s mask = true ↔ ∃ k : Line, (maskInForce s mask)[k] = true := by
  simp [anyInForce, maskInForce]

/-- With no line of its mask in force an adopted lane is LEASED (R57). -/
theorem adoptedStatus_of_none {p : Port} {mask : LineSet} {s : State}
    (h : ∀ k : Line, (maskInForce s mask)[k] = false) : adoptedStatus s p mask = .leased p := by
  refine if_neg fun hany => ?_
  obtain ⟨k, hk⟩ := anyInForce_iff.mp hany
  exact Bool.false_ne_true ((h k).symm.trans hk)

/-- With a line of its mask in force an adopted lane is TRIPPED by all such lines (R57). -/
theorem adoptedStatus_of_some {p : Port} {mask : LineSet} {s : State}
    (h : ∃ k : Line, (maskInForce s mask)[k] = true) :
    adoptedStatus s p mask = .tripped p (maskInForce s mask) false := if_pos (anyInForce_iff.mpr h)

/-- The row of `lane_lease`. -/
theorem exec_laneLease (p : Port) (tag lane : Nat) (s : State) :
    exec (.laneLease p tag lane) s = .next (whileRunning (takeRequest p tag fun _ => cmdLaneLease p lane) s) := rfl

/-- `lane_lease` of a ready port with a number that names no lane is refused with RANGE (R55). -/
theorem exec_laneLease_of_range {p : Port} {tag lane : Nat} {s : State} (h : Ready s p) (hlane : 16 ≤ lane) :
    exec (.laneLease p tag lane) s = refused p tag .range s := by
  rw [exec_laneLease, refused]
  refine congrArg _ (takeRequest_inSession_of_verdict h ?_)
  simp only [laneOf?_of_le hlane, refuse]

/-- `lane_lease` of a ready port for a lane, from the lane's verdict: its status and payload are the reply. -/
theorem exec_laneLease_of_verdict {p : Port} {tag : Nat} {l : Lane} {s t : State} {st : Status} {bytes : List Byte}
    (h : Ready s p) (hlane : leaseLane p l (heard p s) = (t, { status := st, payload := bytes })) :
    exec (.laneLease p tag l.val) s = .next (replied p tag st bytes t) := by
  rw [exec_laneLease]
  refine congrArg _ (takeRequest_inSession_of_verdict h ?_)
  simp only [laneOf?_val, hlane]

/-- `lane_lease` of a lane with an owner leaves the lane as it is: the owner reads the lane's state, any other port HELD
with the owner's number. -/
theorem exec_laneLease_of_owner {p q : Port} {tag : Nat} {l : Lane} {s : State} {status : LaneStatus}
    (h : Ready s p) (hstatus : s.lanes[l].status = status) (howner : status.owner? = some q) :
    exec (.laneLease p tag l.val) s =
      if q = p then .next (replied p tag .ok (leaseAnswer status false) (heard p s))
      else .next (replied p tag .held [portByte q] (heard p s)) := by
  subst hstatus
  have hlane := leaseLane_of_owner (p := p) (s := heard p s) howner
  split
  case isTrue hself => exact exec_laneLease_of_verdict h (hlane.trans (if_pos hself))
  case isFalse hother => exact exec_laneLease_of_verdict h (hlane.trans (if_neg hother))

/-- `lane_lease` of an ORPHANED lane adopts it with the status its mask gives and length 0 (R57). -/
theorem exec_laneLease_of_orphaned {p : Port} {tag : Nat} {l : Lane} {s : State} {status : LaneStatus} (h : Ready s p)
    (horphaned : s.lanes[l].status = .orphaned)
    (hadopted : adoptedStatus s p s.lanes[l].settings.tripMask = status) :
    exec (.laneLease p tag l.val) s = .next (replied p tag .ok (leaseAnswer status true)
      { heard p s with
        lanes := s.lanes.set l { status := status, settings := { s.lanes[l].settings with length := 0 } } }) := by
  subst hadopted
  exact exec_laneLease_of_verdict h (leaseLane_of_orphaned (s := heard p s) horphaned)

/-- Settles O37: RANGE first, then one rule per state of the lane; LEASED and TRIPPED share the rule of a lane with an
owner, and an adoption splits on whether a line of the mask is in force. -/
theorem laneLease : Obligations.LaneLease := by
  intro p tag lane s ready
  refine ⟨exec_laneLease_of_range ready, ?_⟩
  rintro l rfl owned
  cases hst : s.lanes[l].status with
  | free => exact exec_laneLease_of_verdict ready (leaseLane_of_free (s := heard p s) hst)
  | orphaned =>
      exact ⟨fun hnone => exec_laneLease_of_orphaned ready hst (adoptedStatus_of_none hnone),
        fun hsome => exec_laneLease_of_orphaned ready hst (adoptedStatus_of_some hsome)⟩
  | leased q => exact exec_laneLease_of_owner ready hst rfl
  | tripped q cause rearm => exact exec_laneLease_of_owner ready hst rfl

end Sys2Proof.Machine
end

section
/-! SUPPORT. Edit groups: what `group_begin`, `group_end` and `group_cancel` answer and change, by the port's group_open
(spec/05 R75, R77, R79). -/

namespace Sys2Proof.Machine

/-! ### The session record and the held entries -/

/-- Hearing a port does not touch its group_open. -/
theorem heard_sessions_self_groupOpen (p : Port) (s : State) :
    (heard p s).sessions[p].groupOpen = s.sessions[p].groupOpen := by
  simp [heard]

/-- The session table of a heard port once its group_open is written: one write of its record. -/
theorem update_heard_sessions_groupOpen (p : Port) (b : Bool) (s : State) :
    (update (heard p s).sessions p fun r => { r with groupOpen := b }) =
      s.sessions.set p { s.sessions[p] with silenceCount := some 0, groupOpen := b } := by
  simp [heard, update]

/-- Opening or closing the group of a port that was heard writes its session record only. -/
theorem setGroup_heard (p : Port) (b : Bool) (s : State) :
    setGroup p b (heard p s) =
      { s with sessions := s.sessions.set p { s.sessions[p] with silenceCount := some 0, groupOpen := b } } := by
  rw [setGroup, update_heard_sessions_groupOpen]
  rfl

/-- The number that `group_end` and `group_cancel` answer counts the held entries where they stand. -/
theorem length_heldEntries (s : State) (p : Port) :
    (heldEntries s p).length = s.commits.countP (Entry.heldBy p) :=
  List.countP_eq_length_filter.symm

/-- A held entry of the port with a property, looked for in the commit list itself. -/
theorem any_heldEntries (s : State) (p : Port) (f : Entry → Bool) :
    (heldEntries s p).any f = s.commits.any fun e => e.heldBy p && f e :=
  List.any_filter

/-- A slot after the cancel, by the held entries of the commit list that staged or retired it (R79). -/
theorem cancelledSlot_eq (s : State) (p : Port) (i : Slot) :
    cancelledSlot s p i =
      if s.commits.any fun e => e.heldBy p && e.adds i then none
      else if s.commits.any fun e => e.heldBy p && e.removes i then
        s.slots[i].map fun r => { r with state := .live }
      else s.slots[i] := by
  rw [cancelledSlot, any_heldEntries, any_heldEntries]

/-! ### The end and the cancel of a group -/

/-- The end of the group of a port that was heard: its held entries released in place, its group_report set (R77). -/
theorem releaseGroup_heard (p : Port) (s : State) :
    releaseGroup p (heard p s) =
      { s with
        sessions := s.sessions.set p { s.sessions[p] with silenceCount := some 0, groupOpen := false }
        groupReport := s.groupReport.set p true
        commits := s.commits.map (Entry.release p) } := by
  rw [releaseGroup, setGroup, update_heard_sessions_groupOpen]
  rfl

/-- The cancel of the group of a port that was heard: its held entries dropped, the slots they staged or retired
restored (R79). -/
theorem cancelGroup_heard (p : Port) (s : State) :
    cancelGroup p (heard p s) =
      { s with
        sessions := s.sessions.set p { s.sessions[p] with silenceCount := some 0, groupOpen := false }
        commits := s.commits.filter fun e => !e.heldBy p
        slots := tabulate (cancelledSlot s p) } := by
  rw [cancelGroup, setGroup, update_heard_sessions_groupOpen]
  rfl

/-! ### The commands -/

/-- A row that is a session command of a ready port, from the command's verdict: its status and payload are the
reply. -/
theorem exec_eq_replied_of_verdict {i : Instr} {p : Port} {tag : Nat} {cmd : Command} {s t : State} {st : Status}
    {bytes : List Byte} (hrow : exec i s = .next (whileRunning (takeRequest p tag fun _ => inSession p cmd) s))
    (ready : Ready s p) (hcmd : cmd (heard p s) = (t, { status := st, payload := bytes })) :
    exec i s = .next (replied p tag st bytes t) :=
  hrow.trans (congrArg _ (takeRequest_inSession_of_verdict ready hcmd))

/-- The row of `group_begin`. -/
theorem exec_groupBegin (p : Port) (tag : Nat) (s : State) :
    exec (.groupBegin p tag) s = .next (whileRunning (takeRequest p tag fun _ => cmdGroupBegin p) s) := rfl

/-- `group_begin` with the port's group open already is refused with BUSY (R75). -/
theorem exec_groupBegin_of_open {p : Port} {tag : Nat} {s : State} (ready : Ready s p)
    (hgroup : s.sessions[p].groupOpen = true) : exec (.groupBegin p tag) s = refused p tag .busy s := by
  have hheard := (heard_sessions_self_groupOpen p s).trans hgroup
  exact exec_eq_replied_of_verdict (exec_groupBegin p tag s) ready (if_pos hheard)

/-- `group_begin` with no group open opens the port's group (R75). -/
theorem exec_groupBegin_of_closed {p : Port} {tag : Nat} {s : State} (ready : Ready s p)
    (hgroup : s.sessions[p].groupOpen = false) :
    exec (.groupBegin p tag) s = .next (replied p tag .ok [] (setGroup p true (heard p s))) := by
  have hheard := (heard_sessions_self_groupOpen p s).trans hgroup
  exact exec_eq_replied_of_verdict (exec_groupBegin p tag s) ready (if_neg (Bool.eq_false_iff.mp hheard))

/-- What `group_end` and `group_cancel` share: NO_GROUP with no group open, else the group is closed by a function of
the state and the held entries are counted in the answer (R77, R79). -/
def closingGroup (p : Port) (close : State → State) : Command := fun s =>
  if s.sessions[p].groupOpen then okWith [byteOf (heldEntries s p).length] (close s) else refuse .noGroup s

/-- The row of `group_end`. -/
theorem exec_groupEnd (p : Port) (tag : Nat) (s : State) :
    exec (.groupEnd p tag) s =
      .next (whileRunning (takeRequest p tag fun _ => inSession p (closingGroup p (releaseGroup p))) s) := rfl

/-- The row of `group_cancel`. -/
theorem exec_groupCancel (p : Port) (tag : Nat) (s : State) :
    exec (.groupCancel p tag) s =
      .next (whileRunning (takeRequest p tag fun _ => inSession p (closingGroup p (cancelGroup p))) s) := rfl

section Closing

variable {i : Instr} {p : Port} {tag : Nat} {close : State → State} {s : State}

/-- A command that closes a group is refused with NO_GROUP when none is open. -/
theorem exec_closingGroup_of_closed
    (hrow : exec i s = .next (whileRunning (takeRequest p tag fun _ => inSession p (closingGroup p close)) s))
    (ready : Ready s p) (hgroup : s.sessions[p].groupOpen = false) : exec i s = refused p tag .noGroup s := by
  have hheard := (heard_sessions_self_groupOpen p s).trans hgroup
  exact exec_eq_replied_of_verdict hrow ready (if_neg (Bool.eq_false_iff.mp hheard))

/-- A command that closes the open group answers with the number of the port's held entries. -/
theorem exec_closingGroup_of_open
    (hrow : exec i s = .next (whileRunning (takeRequest p tag fun _ => inSession p (closingGroup p close)) s))
    (ready : Ready s p) (hgroup : s.sessions[p].groupOpen = true) :
    exec i s = .next (replied p tag .ok [byteOf (s.commits.countP (Entry.heldBy p))] (close (heard p s))) := by
  have hheard := (heard_sessions_self_groupOpen p s).trans hgroup
  rw [← heard_commits p s, ← length_heldEntries]
  exact exec_eq_replied_of_verdict hrow ready (if_pos hheard)

end Closing

/-- Settles O40: one rule per command and per state of the port's group; the state that each rule gives is written out
by `setGroup_heard`, `releaseGroup_heard`, `cancelGroup_heard` and `cancelledSlot_eq`. -/
theorem editGroups : Obligations.EditGroups := by
  intro p tag s ready group mine
  refine ⟨exec_groupBegin_of_open ready, fun hclosed => ⟨?begins, ?endRefused, ?cancelRefused⟩,
    fun hopen => ⟨?ends, ?cancels⟩⟩
  case begins => rw [exec_groupBegin_of_closed ready hclosed, setGroup_heard]
  case endRefused => exact exec_closingGroup_of_closed (exec_groupEnd p tag s) ready hclosed
  case cancelRefused => exact exec_closingGroup_of_closed (exec_groupCancel p tag s) ready hclosed
  case ends =>
    rw [exec_closingGroup_of_open (exec_groupEnd p tag s) ready hopen, releaseGroup_heard]
    rfl
  case cancels =>
    rw [exec_closingGroup_of_open (exec_groupCancel p tag s) ready hopen, cancelGroup_heard,
      funext (cancelledSlot_eq s p)]
    rfl

end Sys2Proof.Machine
end

section
/-! SUPPORT. The capacity check and the append of a request that adds an entry to the commit list (spec/05 R71). -/

namespace Sys2Proof.Machine

/-- The entries of a port, counted where they stand in the commit list. -/
theorem entriesOf_eq_countP (s : State) (p : Port) : entriesOf s p = s.commits.countP fun e => decide (e.port = p) :=
  List.countP_eq_length_filter.symm

section Capacity

variable {s : State} {p : Port}

/-- A full list comes first: LIST_FULL, whatever the port's share of it. -/
theorem capacityRefusal_of_full (hfull : 24 ≤ s.commits.length) : capacityRefusal s p = some .listFull :=
  if_pos hfull

/-- A port that has used its share of a list with room meets QUOTA. -/
theorem capacityRefusal_of_share (hroom : s.commits.length < 24)
    (hshare : 12 ≤ s.commits.countP fun e => decide (e.port = p)) : capacityRefusal s p = some .quota := by
  rw [← entriesOf_eq_countP] at hshare
  exact (if_neg (Nat.not_le.mpr hroom)).trans (if_pos hshare)

/-- With room in the list and in the port's share there is no refusal. -/
theorem capacityRefusal_of_room (hroom : s.commits.length < 24)
    (hshare : (s.commits.countP fun e => decide (e.port = p)) < 12) : capacityRefusal s p = none := by
  rw [← entriesOf_eq_countP] at hshare
  exact (if_neg (Nat.not_le.mpr hroom)).trans (if_neg (Nat.not_le.mpr hshare))

end Capacity

/-- What a heard port appends, to a state that still has the sessions it was heard with, is held by the group_open the
port had before. -/
theorem append_of_heard_sessions {p : Port} {s t : State} (a : EntryAction) (h : t.sessions = (heard p s).sessions) :
    append p a t =
      { t with
        commits := t.commits ++
          [{ port := p, action := a, held := s.sessions[p].groupOpen, released := false }] } := by
  rw [append, h, heard_sessions_self_groupOpen]

end Sys2Proof.Machine
end

section
/-! SUPPORT. The sample schedule: what `sample_remove` answers and changes, by the slot's state (spec/06 R89). -/

namespace Sys2Proof.Machine

/-! ### The slot a number names, and its removal -/

/-- A number of 32 or more names no slot. -/
theorem slotOf?_of_le {n : Nat} (h : 32 ≤ n) : slotOf? n = none := dif_neg (by omega)

/-- A slot's own number names it. -/
@[simp] theorem slotOf?_val (i : Slot) : slotOf? i.val = some i := dif_pos i.isLt

section RemoveSlot

variable {p : Port} {i : Slot} {r : SlotRec} {s : State}

/-- A STAGED slot is EMPTY at once and its SAMPLE_ADD is deleted. -/
theorem removeSlot_of_staged (h : r.state = .staged) :
    removeSlot p i r s = okWith [0#8]
      { s with
        slots := s.slots.set i none
        commits := s.commits.filter fun e => decide (e.action ≠ .sampleAdd i) } := by
  simp only [removeSlot, h, decide_not]
  rfl

/-- The removal of a LIVE slot is refused when the capacity check is, and nothing changes. -/
theorem removeSlot_of_live_refused {st : Status} (h : r.state = .live) (hcapacity : capacityRefusal s p = some st) :
    removeSlot p i r s = refuse st s := by
  simp only [removeSlot, h, hcapacity]

/-- A LIVE slot becomes RETIRING, code 3, with its SAMPLE_REMOVE appended, once the capacity check passes. -/
theorem removeSlot_of_live_room (h : r.state = .live) (hcapacity : capacityRefusal s p = none) :
    removeSlot p i r s = okWith [3#8]
      (append p (.sampleRemove i) { s with slots := s.slots.set i (some { r with state := .retiring }) }) := by
  simp only [removeSlot, h, hcapacity]
  rfl

/-- A RETIRING slot stays as it is. -/
theorem removeSlot_of_retiring (h : r.state = .retiring) : removeSlot p i r s = okWith [3#8] s := by
  simp only [removeSlot, h]
  rfl

end RemoveSlot

/-! ### The command -/

/-- The row of `sample_remove`. -/
theorem exec_sampleRemove (p : Port) (tag slot : Nat) (s : State) :
    exec (.sampleRemove p tag slot) s =
      .next (whileRunning (takeRequest p tag fun _ => cmdSampleRemove p slot) s) := rfl

section SampleRemove

variable {p : Port} {tag : Nat} {i : Slot} {r : SlotRec} {s t : State}

/-- `sample_remove` with a number that names no slot is refused with RANGE. -/
theorem exec_sampleRemove_of_range {slot : Nat} (ready : Ready s p) (hslot : 32 ≤ slot) :
    exec (.sampleRemove p tag slot) s = refused p tag .range s := by
  refine exec_eq_replied_of_verdict (exec_sampleRemove p tag slot s) ready ?_
  simp only [slotOf?_of_le hslot, refuse]

/-- `sample_remove` of an EMPTY slot is refused with RANGE: it names no sample. -/
theorem exec_sampleRemove_of_empty (ready : Ready s p) (hempty : s.slots[i] = none) :
    exec (.sampleRemove p tag i.val) s = refused p tag .range s := by
  refine exec_eq_replied_of_verdict (exec_sampleRemove p tag i.val s) ready ?_
  simp only [slotOf?_val, heard_slots, hempty, refuse]

/-- `sample_remove` of another port's slot is refused with NOT_OWNER. -/
theorem exec_sampleRemove_of_other (ready : Ready s p) (hslot : s.slots[i] = some r) (hother : r.owner ≠ p) :
    exec (.sampleRemove p tag i.val) s = refused p tag .notOwner s := by
  refine exec_eq_replied_of_verdict (exec_sampleRemove p tag i.val s) ready ?_
  simp only [slotOf?_val, heard_slots, hslot, if_neg hother, refuse]

/-- `sample_remove` of the requester's own slot, from the slot's verdict: its status and payload are the reply. -/
theorem exec_sampleRemove_of_verdict {st : Status} {bytes : List Byte} (ready : Ready s p)
    (hslot : s.slots[i] = some r) (howner : r.owner = p)
    (hremove : removeSlot p i r (heard p s) = (t, { status := st, payload := bytes })) :
    exec (.sampleRemove p tag i.val) s = .next (replied p tag st bytes t) := by
  refine exec_eq_replied_of_verdict (exec_sampleRemove p tag i.val s) ready ?_
  simp only [slotOf?_val, heard_slots, hslot, if_pos howner, hremove]

/-- `sample_remove` of an own LIVE slot is refused as the capacity check says. -/
theorem exec_sampleRemove_of_live_refused {st : Status} (ready : Ready s p) (hslot : s.slots[i] = some r)
    (howner : r.owner = p) (hlive : r.state = .live) (hcapacity : capacityRefusal s p = some st) :
    exec (.sampleRemove p tag i.val) s = refused p tag st s :=
  exec_sampleRemove_of_verdict ready hslot howner (removeSlot_of_live_refused (s := heard p s) hlive hcapacity)

/-- `sample_remove` of an own LIVE slot retires it, its SAMPLE_REMOVE at the tail held if the port's group is open. -/
theorem exec_sampleRemove_of_live_room (ready : Ready s p) (hslot : s.slots[i] = some r) (howner : r.owner = p)
    (hlive : r.state = .live) (hcapacity : capacityRefusal s p = none) :
    exec (.sampleRemove p tag i.val) s = .next (replied p tag .ok [3#8]
      { heard p s with
        slots := s.slots.set i (some { r with state := .retiring })
        commits := s.commits ++
          [{ port := p, action := .sampleRemove i, held := s.sessions[p].groupOpen, released := false }] }) := by
  have happend := append_of_heard_sessions (s := s) (.sampleRemove i)
    (t := { heard p s with slots := s.slots.set i (some { r with state := .retiring }) }) rfl
  exact exec_sampleRemove_of_verdict ready hslot howner
    ((removeSlot_of_live_room (s := heard p s) hlive hcapacity).trans (congrArg (okWith [3#8]) happend))

end SampleRemove

/-- Settles O42: RANGE and NOT_OWNER first, then one rule per state of the requester's own slot; a LIVE one splits on
the capacity check. -/
theorem sampleRemove : Obligations.SampleRemove := by
  intro p tag slot s ready run
  refine ⟨exec_sampleRemove_of_range ready, ?_⟩
  rintro i rfl
  refine ⟨exec_sampleRemove_of_empty ready, fun r hslot => ⟨exec_sampleRemove_of_other ready hslot, fun howner => ?_⟩⟩
  cases hst : r.state with
  | staged => exact exec_sampleRemove_of_verdict ready hslot howner (removeSlot_of_staged (s := heard p s) hst)
  | live =>
      exact ⟨fun hfull => exec_sampleRemove_of_live_refused ready hslot howner hst (capacityRefusal_of_full hfull),
        fun hroom hshare =>
          exec_sampleRemove_of_live_refused ready hslot howner hst (capacityRefusal_of_share hroom hshare),
        fun hroom hshare =>
          exec_sampleRemove_of_live_room ready hslot howner hst (capacityRefusal_of_room hroom hshare)⟩
  | retiring => exact exec_sampleRemove_of_verdict ready hslot howner (removeSlot_of_retiring (s := heard p s) hst)

end Sys2Proof.Machine
end

section
/-! SUPPORT. The TRIP events that applied LANE_SETs call for: what telling a run of them changes (spec/04 R64, R65,
spec/09 R137). -/

namespace Sys2Proof.Machine

/-! ### A run of TRIP events -/

/-- One TRIP event of an applied LANE_SET, given by the lane's owner, the line and the lane: the line's informed set
gains the owner, who is told. -/
def tellTrip (s : State) (x : Port × Line × Lane) : State :=
  emitTo x.1 (.trip x.2.1 (single x.2.2))
    { s with trips := update s.trips x.2.1 fun r => { r with informed := insertId r.informed x.1 } }

/-- A run of TRIP events, in order. -/
def tellTrips (xs : List (Port × Line × Lane)) (s : State) : State := xs.foldl tellTrip s

/-- The events that the model sends for one entry are such a run: its lines ascending, one owner, one lane. -/
theorem tripByEntry_eq_tellTrips (p : Port) (l : Lane) (lines : LineSet) (s : State) :
    tripByEntry p l lines s = tellTrips ((members lines).map fun k => (p, k, l)) s := by
  rw [tellTrips, List.foldl_map]
  rfl

/-- The trip lines after a run of TRIP events: each line's informed set gains the owners told of it. -/
def linesTold (xs : List (Port × Line × Lane)) (trips : Vector TripLine 4) : Vector TripLine 4 :=
  tabulate fun k =>
    { trips[k] with
      informed := setOf fun p => trips[k].informed[p] || xs.any fun x => decide (x.1 = p ∧ x.2.1 = k) }

/-- A port's delivery record after its own of a run of TRIP events, whether or not its session is OPEN. -/
def Delivery.pushTrips (p : Port) (seq : Nat) (xs : List (Port × Line × Lane)) (d : Delivery) : Delivery :=
  (xs.filter fun x => decide (x.1 = p)).foldl
    (fun d x => d.pushEvent (.trip x.2.1 ((Vector.replicate 16 false).set x.2.2 true)) seq) d

/-- The delivery records after a run of TRIP events: only OPEN ports get theirs (R126). -/
def deliveryTold (xs : List (Port × Line × Lane)) (s : State) : Vector Delivery 4 :=
  tabulate fun p => if isOpen s p then s.delivery[p].pushTrips p s.tb.seq xs else s.delivery[p]

theorem linesTold_nil (trips : Vector TripLine 4) : linesTold [] trips = trips := by
  refine table_ext fun k => ?_
  have hinformed : (setOf fun p : Port => trips[k].informed[p] || false) = trips[k].informed :=
    table_ext fun p => by simp
  calc (linesTold [] trips)[k]
      = { trips[k] with informed := setOf fun p : Port => trips[k].informed[p] || false } :=
        tabulate_getElem _ k.val k.isLt
    _ = trips[k] := by rw [hinformed]

theorem linesTold_cons (x : Port × Line × Lane) (xs : List (Port × Line × Lane)) (trips : Vector TripLine 4) :
    linesTold (x :: xs) trips =
      linesTold xs (update trips x.2.1 fun r => { r with informed := insertId r.informed x.1 }) := by
  refine table_ext fun k => ?_
  by_cases hk : k = x.2.1
  · subst hk
    simp [linesTold, Bool.or_assoc, eq_comm]
  · have hval : ¬ x.2.1.val = k.val := fun h => hk (Fin.ext h.symm)
    simp [linesTold, update_getElem, hval, Ne.symm hk]

theorem linesTold_detect (xs : List (Port × Line × Lane)) (trips : Vector TripLine 4) (k : Line) :
    (linesTold xs trips)[k].detect = trips[k].detect := by
  simp [linesTold]

/-- The set of one lane, as the events carry it. -/
theorem single_eq_set (l : Lane) : single l = (Vector.replicate 16 false).set l true := by
  refine table_ext fun j => ?_
  simp [Vector.getElem_set, Fin.ext_iff, eq_comm]

theorem deliveryTold_getElem (xs : List (Port × Line × Lane)) (s : State) (p : Port) :
    (deliveryTold xs s)[p] = if isOpen s p then s.delivery[p].pushTrips p s.tb.seq xs else s.delivery[p] :=
  tabulate_getElem _ p.val p.isLt

theorem deliveryTold_nil (s : State) : deliveryTold [] s = s.delivery := by
  refine table_ext fun p => ?_
  simp [deliveryTold, Delivery.pushTrips]

theorem Delivery.pushTrips_cons (p : Port) (seq : Nat) (x : Port × Line × Lane) (xs : List (Port × Line × Lane))
    (d : Delivery) : d.pushTrips p seq (x :: xs) = (d.pushTrips p seq [x]).pushTrips p seq xs := by
  rw [← List.singleton_append, Delivery.pushTrips, List.filter_append, List.foldl_append]
  rfl

/-- A port's delivery record after one TRIP event: the owner's if its session is OPEN, else what it was. -/
theorem tellTrip_delivery (s : State) (x : Port × Line × Lane) (p : Port) :
    (tellTrip s x).delivery[p] =
      if isOpen s p then s.delivery[p].pushTrips p s.tb.seq [x] else s.delivery[p] := by
  refine (emit_delivery _ _ p.val p.isLt).trans ?_
  rw [single_eq_set]
  by_cases hp : p = x.1
  · subst hp
    simp [Delivery.pushTrips, isOpen]
  · simp [Delivery.pushTrips, hp, Ne.symm hp]

theorem deliveryTold_cons (x : Port × Line × Lane) (xs : List (Port × Line × Lane)) (s : State) :
    deliveryTold (x :: xs) s = deliveryTold xs (tellTrip s x) := by
  refine table_ext fun p => ?_
  have hopen : isOpen (tellTrip s x) p = isOpen s p := rfl
  have htb : (tellTrip s x).tb = s.tb := rfl
  rw [deliveryTold_getElem, deliveryTold_getElem, tellTrip_delivery, Delivery.pushTrips_cons, hopen, htb]
  split <;> rfl

/-- A run of TRIP events writes the informed sets and the OPEN owners' event queues, and nothing else. -/
theorem tellTrips_eq (xs : List (Port × Line × Lane)) (s : State) :
    tellTrips xs s = { s with trips := linesTold xs s.trips, delivery := deliveryTold xs s } := by
  induction xs generalizing s with
  | nil => rw [linesTold_nil, deliveryTold_nil]; rfl
  | cons x xs ih =>
    rw [linesTold_cons, deliveryTold_cons]
    exact ih (tellTrip s x)

section Frame

variable (xs : List (Port × Line × Lane)) (s : State)

@[simp] theorem tellTrips_lanes : (tellTrips xs s).lanes = s.lanes := by rw [tellTrips_eq]
@[simp] theorem tellTrips_slots : (tellTrips xs s).slots = s.slots := by rw [tellTrips_eq]

/-- Lanes put in place before or after a run of TRIP events are the same. -/
theorem tellTrips_with_lanes (la : Vector LaneRec 16) :
    tellTrips xs { s with lanes := la } = { tellTrips xs s with lanes := la } := by
  rw [tellTrips_eq, tellTrips_eq]
  rfl

/-- Slots put in place before or after a run of TRIP events are the same. -/
theorem tellTrips_with_slots (sl : Vector (Option SlotRec) 32) :
    tellTrips xs { s with slots := sl } = { tellTrips xs s with slots := sl } := by
  rw [tellTrips_eq, tellTrips_eq]
  rfl

theorem tellTrips_append (ys : List (Port × Line × Lane)) :
    tellTrips (xs ++ ys) s = tellTrips ys (tellTrips xs s) := List.foldl_append

end Frame

/-- Telling TRIP events leaves the lines in force as they are. -/
theorem inForce_tellTrips (xs : List (Port × Line × Lane)) (s : State) (k : Line) :
    inForce (tellTrips xs s) k = inForce s k := by
  rw [tellTrips_eq]
  exact congrArg Detect.inForce (linesTold_detect xs s.trips k)

end Sys2Proof.Machine
end

section
/-! SUPPORT. The entries of the commit list applied from head to tail: the lanes, the TRIP events and the slots they leave
(spec/04 R64, R65; spec/05 R72, R73; spec/06 R88, R90). -/

namespace Sys2Proof.Machine

/-! ### One LANE_SET -/

/-- A table with an entry put where it stands already is the same table. -/
theorem set_eq_self {α : Type} {n : Nat} {v : Vector α n} {i : Fin n} {a : α} (h : v[i] = a) : v.set i a = v := by
  subst h
  exact Vector.set_getElem_self _

section LaneAfterSet

variable {s : State} {w : LaneSettings} {lane : LaneRec}

theorem laneAfterSet_of_leased {p : Port} (h : lane.status = .leased p) :
    laneAfterSet s w lane =
      ({ settings := w
         status := if anyInForce s w.tripMask then .tripped p (maskInForce s w.tripMask) false else .leased p },
        maskInForce s w.tripMask) := by
  simp only [laneAfterSet, h, anyInForce_iff]
  rfl

theorem laneAfterSet_of_tripped {p : Port} {cause : LineSet} {rearm : Bool} (h : lane.status = .tripped p cause rearm) :
    laneAfterSet s w lane =
      ({ settings := w
         status := .tripped p (union (inter cause w.tripMask) (maskInForce s w.tripMask))
           (rearm && !nonempty (minus (maskInForce s w.tripMask) cause)) },
        minus (maskInForce s w.tripMask) cause) := by
  have hunion : (Vector.ofFn fun k : Line => (cause[k] && w.tripMask[k]) || (maskInForce s w.tripMask)[k]) =
      union (inter cause w.tripMask) (maskInForce s w.tripMask) := table_ext fun k => by simp
  have hnonempty : decide (∃ k : Line, (minus (maskInForce s w.tripMask) cause)[k] = true) =
      nonempty (minus (maskInForce s w.tripMask) cause) := by
    rw [Bool.eq_iff_iff, decide_eq_true_iff, nonempty_eq_true]
  rw [← hunion, ← hnonempty, laneAfterSet, h]
  rfl

/-- A lane without an owner stays as it is (log 25). -/
theorem laneAfterSet_of_unowned (h : lane.status.owner? = none) :
    laneAfterSet s w lane = (lane, Vector.replicate 4 false) := by
  unfold laneAfterSet
  cases hst : lane.status with
  | free => rfl
  | orphaned => rfl
  | leased p => simp [hst, LaneStatus.owner?] at h
  | tripped p cause rearm => simp [hst, LaneStatus.owner?] at h

/-- A LANE_SET leaves the owner of its lane as it is. -/
theorem laneAfterSet_owner : (laneAfterSet s w lane).1.status.owner? = lane.status.owner? := by
  cases hst : lane.status with
  | free => rw [laneAfterSet_of_unowned (by rw [hst]; rfl), hst]
  | orphaned => rw [laneAfterSet_of_unowned (by rw [hst]; rfl), hst]
  | leased p =>
    rw [laneAfterSet_of_leased hst]
    dsimp only
    split <;> rfl
  | tripped p cause rearm => rw [laneAfterSet_of_tripped hst]; rfl

/-- A LANE_SET gives a lane that has an owner its settings. -/
theorem laneAfterSet_settings (h : lane.status.owner? ≠ none) : (laneAfterSet s w lane).1.settings = w := by
  cases hst : lane.status with
  | free => simp [hst, LaneStatus.owner?] at h
  | orphaned => simp [hst, LaneStatus.owner?] at h
  | leased p => rw [laneAfterSet_of_leased hst]
  | tripped p cause rearm => rw [laneAfterSet_of_tripped hst]

/-- What a LANE_SET makes of a lane depends on the rest of the state only by the lines in force. -/
theorem laneAfterSet_congr {t : State} (h : ∀ k : Line, inForce t k = inForce s k) :
    laneAfterSet t w lane = laneAfterSet s w lane := by
  simp only [laneAfterSet, h]

end LaneAfterSet

/-- The TRIP events that a LANE_SET for a lane as it stands calls for, its lines ascending (log 13). -/
def laneSetTrips (s : State) (l : Lane) (w : LaneSettings) (lane : LaneRec) : List (Port × Line × Lane) :=
  match lane.status.owner? with
  | none => []
  | some p => (members (laneAfterSet s w lane).2).map fun k => (p, k, l)

theorem laneSetTrips_of_owner {s : State} {l : Lane} {w : LaneSettings} {lane : LaneRec} {p : Port}
    (h : lane.status.owner? = some p) :
    laneSetTrips s l w lane = (members (laneAfterSet s w lane).2).map fun k => (p, k, l) := by
  rw [laneSetTrips, h]

theorem laneSetTrips_of_unowned {s : State} {l : Lane} {w : LaneSettings} {lane : LaneRec}
    (h : lane.status.owner? = none) : laneSetTrips s l w lane = [] := by
  rw [laneSetTrips, h]

/-- With no line of its mask in force the set of those lines has no member. -/
theorem members_maskInForce_of_none {s : State} {mask : LineSet} (h : ¬ anyInForce s mask = true) :
    members (maskInForce s mask) = [] := by
  rw [anyInForce_iff] at h
  exact List.filter_eq_nil_iff.mpr fun k _ hk => h ⟨k, hk⟩

/-- A LANE_SET for a lane without an owner changes nothing (log 25). -/
theorem applyLaneSet_of_unowned {l : Lane} {w : LaneSettings} {s : State} (h : s.lanes[l].status.owner? = none) :
    applyLaneSet l w s = s := by
  rw [applyLaneSet]
  cases hst : s.lanes[l].status with
  | free => rfl
  | orphaned => rfl
  | leased p => exact nomatch (congrArg LaneStatus.owner? hst).symm.trans h
  | tripped p cause rearm => exact nomatch (congrArg LaneStatus.owner? hst).symm.trans h

/-- The same of what the entry makes of the lane and of the TRIP events it calls for. -/
theorem tellTrips_laneSet_of_unowned {l : Lane} {w : LaneSettings} {s : State}
    (h : s.lanes[l].status.owner? = none) :
    tellTrips (laneSetTrips s l w s.lanes[l]) { s with lanes := s.lanes.set l (laneAfterSet s w s.lanes[l]).1 } =
      s := by
  rw [laneSetTrips_of_unowned h, laneAfterSet_of_unowned h, set_eq_self rfl]
  rfl

/-- A LANE_SET applied: its lane as `laneAfterSet` says, then the TRIP events. -/
theorem applyLaneSet_eq (l : Lane) (w : LaneSettings) (s : State) :
    applyLaneSet l w s =
      tellTrips (laneSetTrips s l w s.lanes[l])
        { s with lanes := s.lanes.set l (laneAfterSet s w s.lanes[l]).1 } := by
  cases hst : s.lanes[l].status with
  | free =>
    have howner : s.lanes[l].status.owner? = none := by rw [hst]; rfl
    rw [applyLaneSet_of_unowned howner, tellTrips_laneSet_of_unowned howner]
  | orphaned =>
    have howner : s.lanes[l].status.owner? = none := by rw [hst]; rfl
    rw [applyLaneSet_of_unowned howner, tellTrips_laneSet_of_unowned howner]
  | leased p =>
    rw [applyLaneSet, hst, laneSetTrips_of_owner (p := p) (by rw [hst]; rfl), laneAfterSet_of_leased hst]
    dsimp only [applyToLeased]
    split
    case isTrue => exact tripByEntry_eq_tellTrips _ _ _ _
    case isFalse hnone => rw [members_maskInForce_of_none hnone]; rfl
  | tripped p cause rearm =>
    rw [applyLaneSet, hst, laneSetTrips_of_owner (p := p) (by rw [hst]; rfl), laneAfterSet_of_tripped hst]
    exact tripByEntry_eq_tellTrips _ _ _ _

/-- The TRIP events of a LANE_SET depend on the rest of the state only by the lines in force. -/
theorem laneSetTrips_congr {s t : State} (h : ∀ k : Line, inForce t k = inForce s k) (l : Lane) (w : LaneSettings)
    (lane : LaneRec) : laneSetTrips t l w lane = laneSetTrips s l w lane := by
  rw [laneSetTrips, laneAfterSet_congr h]
  rfl

/-- A LANE_SET applied after some TRIP events: its own follow them. -/
theorem applyLaneSet_tellTrips (l : Lane) (w : LaneSettings) (xs : List (Port × Line × Lane)) (s : State) :
    applyLaneSet l w (tellTrips xs s) =
      tellTrips (xs ++ laneSetTrips s l w s.lanes[l])
        { s with lanes := s.lanes.set l (laneAfterSet s w s.lanes[l]).1 } := by
  rw [applyLaneSet_eq, tellTrips_lanes, laneSetTrips_congr (inForce_tellTrips xs s),
    laneAfterSet_congr (inForce_tellTrips xs s), tellTrips_with_lanes, ← tellTrips_append,
    ← tellTrips_with_lanes]

/-! ### The entries of a list -/

section ApplyEntry

variable {e : Entry} {s : State}

theorem applyEntry_laneSet {l : Lane} {w : LaneSettings} (h : e.action = .laneSet l w) :
    applyEntry s e = applyLaneSet l w s := by
  rw [applyEntry, h]

theorem applyEntry_add {i : Slot} (h : e.action = .sampleAdd i) :
    applyEntry s e = { s with slots := update s.slots i fun r => r.map fun r => { r with state := .live } } := by
  rw [applyEntry, h]

theorem applyEntry_remove {i : Slot} (h : e.action = .sampleRemove i) :
    applyEntry s e = { s with slots := s.slots.set i none } := by
  rw [applyEntry, h]

end ApplyEntry

/-- The slots after some entries: those of the SAMPLE_REMOVEs EMPTY, those of the SAMPLE_ADDs LIVE (R88, R90). -/
def slotsAfterEntries (es : List Entry) (slots : Vector (Option SlotRec) 32) : Vector (Option SlotRec) 32 :=
  tabulate fun i =>
    if es.any fun e => e.removes i then none
    else if es.any fun e => e.adds i then slots[i].map fun r => { r with state := .live }
    else slots[i]

theorem slotsAfterEntries_getElem (es : List Entry) (slots : Vector (Option SlotRec) 32) (i : Slot) :
    (slotsAfterEntries es slots)[i] =
      if es.any fun e => e.removes i then none
      else if es.any fun e => e.adds i then slots[i].map fun r => { r with state := .live }
      else slots[i] :=
  tabulate_getElem _ i.val i.isLt

section LastEntry

variable (es : List Entry) {e : Entry} (s : State)

/-- A LANE_SET after some entries acts on its lane as they left it. -/
theorem lanesAfterSets_append_laneSet {l : Lane} {w : LaneSettings} (h : e.action = .laneSet l w) :
    lanesAfterSets s (es ++ [e]) =
      ((lanesAfterSets s es).1.set l (laneAfterSet s w (lanesAfterSets s es).1[l]).1,
        (lanesAfterSets s es).2 ++ laneSetTrips s l w (lanesAfterSets s es).1[l]) := by
  unfold lanesAfterSets
  rw [List.foldl_append, List.foldl_cons, List.foldl_nil, h]
  rfl

/-- An entry for a slot leaves the lanes as the entries before it did. -/
theorem lanesAfterSets_append_other (h : ∀ l w, e.action ≠ .laneSet l w) :
    lanesAfterSets s (es ++ [e]) = lanesAfterSets s es := by
  unfold lanesAfterSets
  rw [List.foldl_append, List.foldl_cons, List.foldl_nil]
  cases ha : e.action with
  | laneSet l w => exact absurd ha (h l w)
  | sampleAdd i => rfl
  | sampleRemove i => rfl

variable (slots : Vector (Option SlotRec) 32)

theorem slotsAfterEntries_append_laneSet {l : Lane} {w : LaneSettings} (h : e.action = .laneSet l w) :
    slotsAfterEntries (es ++ [e]) slots = slotsAfterEntries es slots := by
  simp [slotsAfterEntries, Entry.removes, Entry.adds, h]

theorem slotsAfterEntries_append_add {i : Slot} (h : e.action = .sampleAdd i) :
    slotsAfterEntries (es ++ [e]) slots =
      update (slotsAfterEntries es slots) i fun r => r.map fun r => { r with state := .live } := by
  refine table_ext fun j => ?_
  by_cases hj : i = j
  · subst hj
    have hremove : e.removes i = false := by simp [Entry.removes, h]
    have hadd : e.adds i = true := by simp [Entry.adds, h]
    simp only [slotsAfterEntries, Fin.getElem_fin, tabulate_getElem, update_getElem_self, List.any_append, List.any_cons,
      List.any_nil, hremove, hadd, Bool.or_false, Bool.or_true, if_true]
    split
    case isTrue => rfl
    case isFalse => split <;> simp [Function.comp_def]
  · have hval : ¬ i.val = j.val := fun hv => hj (Fin.ext hv)
    simp [slotsAfterEntries, Entry.removes, Entry.adds, h, hj, hval, update_getElem]

theorem slotsAfterEntries_append_remove {i : Slot} (h : e.action = .sampleRemove i) :
    slotsAfterEntries (es ++ [e]) slots = (slotsAfterEntries es slots).set i none := by
  refine table_ext fun j => ?_
  by_cases hj : i = j
  · subst hj
    simp [slotsAfterEntries, Entry.removes, h]
  · have hval : ¬ i.val = j.val := fun hv => hj (Fin.ext hv)
    simp [slotsAfterEntries, Entry.removes, Entry.adds, h, hj, hval]

end LastEntry

/-- The lanes and the TRIP events of no entry. -/
theorem lanesAfterSets_nil (s : State) : lanesAfterSets s [] = (s.lanes, []) := rfl

theorem slotsAfterEntries_nil (slots : Vector (Option SlotRec) 32) : slotsAfterEntries [] slots = slots :=
  table_ext fun i => by simp [slotsAfterEntries]

/-- The entries applied from head to tail: the lanes and slots they leave, and their TRIP events in order. -/
theorem applyEntries_eq (es : List Entry) (s : State) :
    es.foldl applyEntry s =
      tellTrips (lanesAfterSets s es).2
        { s with lanes := (lanesAfterSets s es).1, slots := slotsAfterEntries es s.slots } := by
  induction es using List.reverseRecOn with
  | nil => rw [lanesAfterSets_nil, slotsAfterEntries_nil]; rfl
  | append_singleton es e ih =>
    rw [List.foldl_append, List.foldl_cons, List.foldl_nil, ih]
    cases ha : e.action with
    | laneSet l w =>
      rw [applyEntry_laneSet ha, lanesAfterSets_append_laneSet es s ha, slotsAfterEntries_append_laneSet es _ ha,
        applyLaneSet_tellTrips]
      rfl
    | sampleAdd i =>
      rw [applyEntry_add ha, lanesAfterSets_append_other es s (by simp [ha]), slotsAfterEntries_append_add es _ ha,
        tellTrips_slots, ← tellTrips_with_slots]
    | sampleRemove i =>
      rw [applyEntry_remove ha, lanesAfterSets_append_other es s (by simp [ha]),
        slotsAfterEntries_append_remove es _ ha, tellTrips_slots, ← tellTrips_with_slots]

end Sys2Proof.Machine
end

section
/-! SUPPORT. The lanes after a run of entries: their owners, and whose settings they end with (spec/04 R64, R65). -/

namespace Sys2Proof.Machine

/-- The settings that an entry brings for a lane, if it is a LANE_SET for it. -/
def Entry.settingsFor (l : Lane) (e : Entry) : Option LaneSettings :=
  match e.action with
  | .laneSet m w => if m = l then some w else none
  | .sampleAdd _ => none
  | .sampleRemove _ => none

theorem Entry.settingsFor_other {l : Lane} {e : Entry} (h : ∀ m w, e.action ≠ .laneSet m w) :
    e.settingsFor l = none := by
  unfold Entry.settingsFor
  cases ha : e.action with
  | laneSet m w => exact absurd ha (h m w)
  | sampleAdd i => rfl
  | sampleRemove i => rfl

theorem Entry.settingsFor_laneSet {l m : Lane} {w : LaneSettings} {e : Entry} (h : e.action = .laneSet m w) :
    e.settingsFor l = if m = l then some w else none := by
  rw [Entry.settingsFor, h]

/-- An entry is a LANE_SET for some lane or brings settings for none. -/
theorem Entry.laneSet_or_other (e : Entry) :
    (∃ m w, e.action = .laneSet m w) ∨ ∀ m w, e.action ≠ .laneSet m w := by
  cases ha : e.action with
  | laneSet m w => exact .inl ⟨m, w, rfl⟩
  | sampleAdd i => exact .inr fun _ _ h => nomatch h
  | sampleRemove i => exact .inr fun _ _ h => nomatch h

/-- Entries leave every lane its owner. -/
theorem lanesAfterSets_owner (es : List Entry) (s : State) (l : Lane) :
    (lanesAfterSets s es).1[l].status.owner? = s.lanes[l].status.owner? := by
  induction es using List.reverseRecOn with
  | nil => rfl
  | append_singleton es e ih =>
    obtain ⟨m, w, ha⟩ | ha := e.laneSet_or_other
    · rw [lanesAfterSets_append_laneSet es s ha]
      by_cases hm : m = l
      · subst hm
        simpa [laneAfterSet_owner] using ih
      · have hval : ¬ m.val = l.val := fun h => hm (Fin.ext h)
        simpa [Vector.getElem_set, hval] using ih
    · rwa [lanesAfterSets_append_other es s ha]

/-- A lane ends with the settings of the last LANE_SET for it, and with its own if there is none. -/
theorem lanesAfterSets_settings (es : List Entry) (s : State) (l : Lane)
    (howned : ∀ e ∈ es, e.settingsFor l ≠ none → s.lanes[l].status.owner? ≠ none) :
    (lanesAfterSets s es).1[l].settings =
      (es.filterMap (Entry.settingsFor l)).getLast?.getD s.lanes[l].settings := by
  induction es using List.reverseRecOn with
  | nil => rfl
  | append_singleton es e ih =>
    have hbefore := ih fun e he => howned e (List.mem_append_left _ he)
    rw [List.filterMap_append]
    obtain ⟨m, w, ha⟩ | ha := e.laneSet_or_other
    · rw [lanesAfterSets_append_laneSet es s ha]
      by_cases hm : m = l
      · subst hm
        have hfor : e.settingsFor m = some w := (Entry.settingsFor_laneSet ha).trans (if_pos rfl)
        have howner : (lanesAfterSets s es).1[m].status.owner? ≠ none := by
          rw [lanesAfterSets_owner]
          exact howned e (by simp) (by simp [hfor])
        simpa [hfor] using laneAfterSet_settings howner
      · have hval : ¬ m.val = l.val := fun h => hm (Fin.ext h)
        have hfor : e.settingsFor l = none := (Entry.settingsFor_laneSet ha).trans (if_neg hm)
        simpa [Vector.getElem_set, hval, hfor] using hbefore
    · rw [lanesAfterSets_append_other es s ha]
      simpa [Entry.settingsFor_other ha] using hbefore

/-- A lane that no LANE_SET is for stays as it is. -/
theorem lanesAfterSets_of_none (es : List Entry) (s : State) (l : Lane)
    (h : ∀ e ∈ es, e.settingsFor l = none) : (lanesAfterSets s es).1[l] = s.lanes[l] := by
  induction es using List.reverseRecOn with
  | nil => rfl
  | append_singleton es e ih =>
    have hbefore := ih fun e he => h e (List.mem_append_left _ he)
    obtain ⟨m, w, ha⟩ | ha := e.laneSet_or_other
    · have hm : ¬ m = l := by
        have hfor := h e (by simp)
        rw [Entry.settingsFor_laneSet ha] at hfor
        exact fun hm => by simp [hm] at hfor
      have hval : ¬ m.val = l.val := fun h => hm (Fin.ext h)
      rw [lanesAfterSets_append_laneSet es s ha]
      simpa [Vector.getElem_set, hval] using hbefore
    · rwa [lanesAfterSets_append_other es s ha]

end Sys2Proof.Machine
end

section
/-! SUPPORT. The triggers of one happening reaching the converter in order: the converter they leave and the ones turned
away (spec/07 R105 to R109). -/

namespace Sys2Proof.Machine

/-! ### What the delivery of result records does not touch -/

section Delivered

variable (r : ConvRequest) (st : ResultStatus) (s : State)

@[simp] theorem deliverFor_conv : (deliverFor r st s).conv = s.conv := by
  obtain ⟨d, h⟩ := deliverFor_frame r st s
  rw [h]

/-- Slots put in place before or after a record is placed are the same. -/
theorem placeResult_with_slots (p : Port) (m : ResultRec) (sl : Vector (Option SlotRec) 32) :
    placeResult p m { s with slots := sl } = { placeResult p m s with slots := sl } := by
  have hopen : isOpen { s with slots := sl } p = isOpen s p := rfl
  rw [placeResult, placeResult, hopen]
  split <;> rfl

theorem deliverFor_with_slots (sl : Vector (Option SlotRec) 32) :
    deliverFor r st { s with slots := sl } = { deliverFor r st s with slots := sl } := by
  unfold deliverFor
  split
  · rfl
  · exact placeResult_with_slots s _ _ sl

theorem deliverAll_with_slots (rs : List ConvRequest) (sl : Vector (Option SlotRec) 32) :
    deliverAll rs st { s with slots := sl } = { deliverAll rs st s with slots := sl } := by
  induction rs generalizing s with
  | nil => rfl
  | cons r rs ih => rw [deliverAll_cons, deliverAll_cons, deliverFor_with_slots, ih]

end Delivered

/-! ### One trigger -/

/-- A request has age 0 in the tick of its trigger. -/
theorem ageOf_self (now : Nat) : ageOf now now = 0 := by
  simp [ageOf, Config.stampModulus]

/-- A request is not stale in the tick of its trigger. -/
theorem not_stale_of_now {r : ConvRequest} {now : Nat} (h : r.triggerTime = now) : ConvRequest.stale now r = false := by
  simp [ConvRequest.stale, h, ageOf_self]

/-- The code of a level in the terms of Safety. -/
theorem codeOf_eq_captured (level : Int) : codeOf level = captured level := by
  unfold codeOf captured Config.codeMax
  split_ifs <;> omega

section TakeTrigger

variable {r : ConvRequest} {s : State}

/-- A trigger of this tick starts an IDLE converter, at age 0. -/
theorem takeTrigger_of_idle (hidle : s.conv.inFlight = none) (hempty : s.conv.queue = [])
    (hnow : r.triggerTime = s.tickStamp) :
    takeTrigger r s =
      { s with
        conv :=
          { inFlight := some { request := r, wait := 0, capture := captured s.pins.ain[r.channel], elapsed := 0 }
            queue := [] } } := by
  have hstale := not_stale_of_now hnow
  simp [takeTrigger, hidle, hempty, Config.queueCapacity, takeHead, Converter.afterHead, hstale, startOf, hnow,
    ageOf_self, codeOf_eq_captured, deliverAll]

/-- A trigger waits behind the conversion in flight while the queue has room. -/
theorem takeTrigger_of_room {c : Conversion} (hbusy : s.conv.inFlight = some c) (hroom : s.conv.queue.length < 8) :
    takeTrigger r s = { s with conv := { inFlight := some c, queue := s.conv.queue ++ [r] } } := by
  simp [takeTrigger, hbusy, Config.queueCapacity, hroom]

/-- A trigger that finds a full queue is turned away. -/
theorem takeTrigger_of_full (hfull : s.conv.queue.length = 8) :
    takeTrigger r s = deliverFor r (.missed .queueFull) s := by
  simp [takeTrigger, Config.queueCapacity, hfull]

/-- Slots put in place before or after a trigger is taken are the same. -/
theorem takeTrigger_with_slots (r : ConvRequest) (s : State) (sl : Vector (Option SlotRec) 32) :
    takeTrigger r { s with slots := sl } = { takeTrigger r s with slots := sl } := by
  unfold takeTrigger
  split
  · dsimp only
    split
    · exact deliverAll_with_slots _ { s with conv := _ } _ sl
    · rfl
  · exact deliverFor_with_slots _ _ _ sl

end TakeTrigger

/-! ### The triggers of one happening -/

/-- Triggers handed to the converter in order. -/
def takeTriggers (rs : List ConvRequest) (s : State) : State := rs.foldl (fun s r => takeTrigger r s) s

theorem takeTriggers_cons (r : ConvRequest) (rs : List ConvRequest) (s : State) :
    takeTriggers (r :: rs) s = takeTriggers rs (takeTrigger r s) := rfl

theorem takeTriggers_append (rs rs' : List ConvRequest) (s : State) :
    takeTriggers (rs ++ rs') s = takeTriggers rs' (takeTriggers rs s) := List.foldl_append

theorem takeTriggers_with_slots (rs : List ConvRequest) (s : State) (sl : Vector (Option SlotRec) 32) :
    takeTriggers rs { s with slots := sl } = { takeTriggers rs s with slots := sl } := by
  induction rs generalizing s with
  | nil => rfl
  | cons r rs ih => rw [takeTriggers_cons, takeTriggers_cons, takeTrigger_with_slots, ih]

/-- Taking triggers writes the converter and the delivery records only. -/
theorem takeTriggers_frame (rs : List ConvRequest) (s : State) :
    ∃ c d, takeTriggers rs s = { s with conv := c, delivery := d } := by
  induction rs generalizing s with
  | nil => exact ⟨_, _, rfl⟩
  | cons r rs ih =>
    obtain ⟨c, d, h⟩ := takeTrigger_frame r s
    obtain ⟨c', d', h'⟩ := ih (takeTrigger r s)
    exact ⟨c', d', by rw [takeTriggers_cons, h', h]⟩

section TakeTriggersFrame

variable (rs : List ConvRequest) (s : State)

@[simp] theorem takeTriggers_tb : (takeTriggers rs s).tb = s.tb := by
  obtain ⟨c, d, h⟩ := takeTriggers_frame rs s
  rw [h]

@[simp] theorem takeTriggers_tickStamp : (takeTriggers rs s).tickStamp = s.tickStamp := by
  obtain ⟨c, d, h⟩ := takeTriggers_frame rs s
  rw [h]

@[simp] theorem takeTriggers_slots : (takeTriggers rs s).slots = s.slots := by
  obtain ⟨c, d, h⟩ := takeTriggers_frame rs s
  rw [h]

@[simp] theorem takeTriggers_commits : (takeTriggers rs s).commits = s.commits := by
  obtain ⟨c, d, h⟩ := takeTriggers_frame rs s
  rw [h]

end TakeTriggersFrame

/-- With a full queue every trigger is turned away. -/
theorem takeTriggers_of_full (rs : List ConvRequest) {s : State} (hfull : s.conv.queue.length = 8) :
    takeTriggers rs s = deliverAll rs (.missed .queueFull) s := by
  induction rs generalizing s with
  | nil => rfl
  | cons r rs ih =>
    rw [takeTriggers_cons, takeTrigger_of_full hfull, ih (by rwa [deliverFor_conv]), deliverAll_cons]

/-- With a conversion in flight the triggers fill the queue up to 8, and the others are turned away. -/
theorem takeTriggers_of_busy (rs : List ConvRequest) {s : State} {c : Conversion} (hbusy : s.conv.inFlight = some c)
    (hfits : s.conv.queue.length ≤ 8) :
    takeTriggers rs s =
      deliverAll ((s.conv.queue ++ rs).drop 8) (.missed .queueFull)
        { s with conv := { inFlight := some c, queue := (s.conv.queue ++ rs).take 8 } } := by
  induction rs generalizing s with
  | nil =>
    have hconv : s.conv = { inFlight := some c, queue := s.conv.queue } := by rw [← hbusy]
    rw [List.append_nil, List.drop_of_length_le hfits, List.take_of_length_le hfits, ← hconv]
    rfl
  | cons r rs ih =>
    obtain hroom | hfull := Nat.lt_or_eq_of_le hfits
    · have hmore : (s.conv.queue ++ [r]).length ≤ 8 := by simpa using hroom
      rw [takeTriggers_cons, takeTrigger_of_room hbusy hroom, ih (s := { s with conv := _ }) rfl hmore,
        List.append_assoc, List.singleton_append]
    · have hconv : s.conv = { inFlight := some c, queue := s.conv.queue } := by rw [← hbusy]
      rw [takeTriggers_of_full _ hfull, List.drop_left' hfull, List.take_left' hfull, ← hconv]

/-- The triggers of one happening reach a converter in range: the converter and the turned away ones in the terms of
Safety (R105, R106, R107). -/
theorem takeTriggers_eq {rs : List ConvRequest} {s : State} (hfits : ConverterFits s)
    (hnow : ∀ r ∈ rs, r.triggerTime = s.tickStamp) :
    takeTriggers rs s =
      deliverAll (turnedAway s rs) (.missed .queueFull) { s with conv := convAfter s rs } := by
  obtain ⟨hlength, hidle⟩ := hfits
  cases hflight : s.conv.inFlight with
  | some c =>
    simp only [turnedAway, convAfter, hflight]
    exact takeTriggers_of_busy rs hflight hlength
  | none =>
    have hempty := hidle hflight
    cases rs with
    | nil =>
      simp only [turnedAway, convAfter, hflight]
      rfl
    | cons r rs =>
      simp only [turnedAway, convAfter, hflight]
      rw [takeTriggers_cons, takeTrigger_of_idle hflight hempty (hnow r (by simp)),
        takeTriggers_of_busy (s := { s with conv := _ }) rs rfl (Nat.zero_le _)]
      rfl

end Sys2Proof.Machine
end

section
/-! SUPPORT. The slots that one happening fires, in ascending order: the slots they leave and the triggers they hand over
(spec/06 R91, R93, R94). -/

namespace Sys2Proof.Machine

/-! ### The slots that are due -/

/-- A slot with a record fires now, by the frame and the counter (R91). -/
def firesNow (s : State) (r : SlotRec) : Bool :=
  running s && decide (s.tb.counter = r.offset) && r.dueUnder s.tb.seq

/-- A slot that may fire is due in a frame by the rules of Safety. -/
theorem dueIn_eq_dueUnder (seq : Nat) (r : SlotRec) : r.dueIn seq = r.dueUnder seq := by
  have hstate : r.state.fires = (decide (r.state = .live) || decide (r.state = .retiring)) := by
    cases r.state <;> rfl
  have hmode : r.mode.qualifies seq = r.mode.takes seq := by cases r.mode <;> rfl
  rw [SlotRec.dueIn, SlotRec.dueUnder, hstate, hmode]

theorem slotDue_of_some {s : State} {i : Slot} {r : SlotRec} (h : s.slots[i] = some r) :
    slotDue s i = firesNow s r := by
  simp only [slotDue, h, dueIn_eq_dueUnder, firesNow]

theorem slotDue_of_empty {s : State} {i : Slot} (h : s.slots[i] = none) : slotDue s i = false := by
  simp only [slotDue, h]

/-! ### One firing -/

/-- A ONCE slot that no entry removes becomes EMPTY at its firing, and nothing else changes (R93). -/
theorem emptyOnce_of_kept {i : Slot} {r : SlotRec} {s : State} (hkept : ∀ e ∈ s.commits, e.removes i = false) :
    emptyOnce i r s = { s with slots := if r.mode = .once then s.slots.set i none else s.slots } := by
  have hcommits : (s.commits.filter fun e => !e.removes i) = s.commits :=
    List.filter_eq_self.mpr fun e he => by simp [hkept e he]
  cases hmode : r.mode with
  | once => simp [emptyOnce, hmode, hcommits]
  | every => simp [emptyOnce, hmode]
  | divided divisor phase => simp [emptyOnce, hmode]

/-- Slot i fires, with no entry in the commit list to remove it: its trigger is taken, and its record is what
`afterFiring` says. -/
theorem fireSlot_eq {i : Slot} {r : SlotRec} {s : State} (hslot : s.slots[i] = some r)
    (hkept : ∀ e ∈ s.commits, e.removes i = false) :
    fireSlot i s =
      takeTriggers [triggerNow s i r] { s with slots := s.slots.set i (r.afterFiring s.tb.seq) } := by
  have hfired : fireSlot i s =
      emptyOnce i r (takeTriggers [triggerNow s i r]
        { s with slots := s.slots.set i (some { r with lastFired := some s.tb.seq }) }) := by
    rw [fireSlot, hslot]
    rfl
  have hslots : (if r.mode = .once then (s.slots.set i (some { r with lastFired := some s.tb.seq })).set i none
      else s.slots.set i (some { r with lastFired := some s.tb.seq })) = s.slots.set i (r.afterFiring s.tb.seq) := by
    unfold SlotRec.afterFiring
    split <;> simp
  rw [hfired, emptyOnce_of_kept (by simpa using hkept), takeTriggers_slots, hslots,
    ← takeTriggers_with_slots]

/-! ### The firings of one happening -/

/-- The trigger of slot i, if a test picks it out and it fires now. -/
def triggerAt (test : Slot → Bool) (s : State) (i : Slot) : Option ConvRequest :=
  s.slots[i].bind fun r => if test i && firesNow s r then some (triggerNow s i r) else none

/-- What a firing reads of the state besides the slot is the timebase and the tick stamp. -/
theorem firesNow_congr {s t : State} (htb : t.tb = s.tb) : firesNow t = firesNow s := by
  unfold firesNow running
  rw [htb]

theorem triggerAt_congr {test : Slot → Bool} {s t : State} {i : Slot} (hslot : t.slots[i] = s.slots[i])
    (htb : t.tb = s.tb) (hstamp : t.tickStamp = s.tickStamp) : triggerAt test t i = triggerAt test s i := by
  simp only [triggerAt, hslot, firesNow_congr htb, triggerNow, htb, hstamp]

/-- The record of slot i after it is judged: fired, if a test picks it out and it fires now. -/
def slotJudged (test : Slot → Bool) (s : State) (i : Slot) : Option SlotRec :=
  s.slots[i].bind fun r => if test i && firesNow s r then r.afterFiring s.tb.seq else some r

theorem slotJudged_congr {test : Slot → Bool} {s t : State} {i : Slot} (hslot : t.slots[i] = s.slots[i])
    (htb : t.tb = s.tb) : slotJudged test t i = slotJudged test s i := by
  simp only [slotJudged, hslot, firesNow_congr htb, htb]

/-- One slot judged: its trigger, if there is one, is taken, and its record is `slotJudged`. -/
theorem judgeSlot_eq (test : Slot → Bool) {s : State} {i : Slot}
    (hkept : test i = true → ∀ e ∈ s.commits, e.removes i = false) :
    (if test i && slotDue s i then fireSlot i s else s) =
      takeTriggers (triggerAt test s i).toList { s with slots := s.slots.set i (slotJudged test s i) } := by
  cases hslot : s.slots[i] with
  | none =>
    simp only [slotDue_of_empty hslot, Bool.and_false, triggerAt, slotJudged, hslot, Option.bind_none,
      set_eq_self hslot]
    rfl
  | some r =>
    simp only [slotDue_of_some hslot, triggerAt, slotJudged, hslot, Option.bind_some]
    split
    case isTrue hfires => exact fireSlot_eq hslot (hkept (Bool.and_elim_left hfires))
    case isFalse =>
      rw [set_eq_self hslot]
      rfl

/-- Whether slot i with a record fires in the judgement of some slots: it is one of them, a test picks it out, and it
fires now. -/
def firesAmong (test : Slot → Bool) (l : List Slot) (s : State) (i : Slot) (r : SlotRec) : Bool :=
  decide (i ∈ l) && (test i && firesNow s r)

/-- A trigger is made in the tick of its firing. -/
theorem triggerTime_of_mem {test : Slot → Bool} {s : State} {l : List Slot} :
    ∀ r ∈ l.filterMap (triggerAt test s), r.triggerTime = s.tickStamp := by
  intro r hr
  obtain ⟨i, -, hi⟩ := List.mem_filterMap.mp hr
  obtain ⟨record, -, hrecord⟩ := Option.bind_eq_some_iff.mp hi
  split at hrecord
  · cases hrecord; rfl
  · cases hrecord

theorem slotsFired_getElem (test : Slot → SlotRec → Bool) (seq : Nat) (slots : Vector (Option SlotRec) 32) (i : Slot) :
    (slotsFired test seq slots)[i] =
      slots[i].bind fun r => if test i r then r.afterFiring seq else some r := by
  simp [slotsFired]

/-- A slot that no test picks out keeps its record. -/
theorem slotsFired_of_none {test : Slot → SlotRec → Bool} {i : Slot} (seq : Nat)
    {slots : Vector (Option SlotRec) 32} (h : ∀ r ∈ slots[i], test i r = false) :
    (slotsFired test seq slots)[i] = slots[i] := by
  rw [slotsFired_getElem]
  cases hslot : slots[i] with
  | none => rfl
  | some r => simp [h r hslot]

/-- One slot more judged changes that slot at most. -/
theorem slotsFired_append_singleton (test : Slot → Bool) {l : List Slot} {i : Slot} (s : State) (hnew : i ∉ l) :
    slotsFired (firesAmong test (l ++ [i]) s) s.tb.seq s.slots =
      (slotsFired (firesAmong test l s) s.tb.seq s.slots).set i (slotJudged test s i) := by
  refine table_ext fun j => ?_
  by_cases hj : j = i
  · subst hj
    simp [slotsFired, firesAmong, slotJudged]
  · have hval : ¬ i.val = j.val := fun h => hj (Fin.ext h.symm)
    simp [slotsFired, firesAmong, hj, hval]

/-- Some slots judged one after another: the slots and triggers of those that a test picks out and that are due. -/
theorem judgeSlots_eq (test : Slot → Bool) {l : List Slot} {s : State} (hdistinct : l.Nodup)
    (hkept : ∀ i, test i = true → ∀ e ∈ s.commits, e.removes i = false) :
    l.foldl (fun s i => if test i && slotDue s i then fireSlot i s else s) s =
      takeTriggers (l.filterMap (triggerAt test s))
        { s with slots := slotsFired (firesAmong test l s) s.tb.seq s.slots } := by
  induction l using List.reverseRecOn with
  | nil =>
    have hslots : slotsFired (firesAmong test [] s) s.tb.seq s.slots = s.slots :=
      table_ext fun i => slotsFired_of_none _ fun r _ => rfl
    rw [hslots]
    rfl
  | append_singleton l i ih =>
    obtain ⟨hl, hnew⟩ : l.Nodup ∧ i ∉ l := by
      rw [← List.concat_eq_append, List.nodup_concat] at hdistinct
      exact hdistinct.symm
    have hslot : (slotsFired (firesAmong test l s) s.tb.seq s.slots)[i] = s.slots[i] :=
      slotsFired_of_none _ fun r _ => by simp [firesAmong, hnew]
    rw [List.foldl_append, List.foldl_cons, List.foldl_nil, ih hl, judgeSlot_eq test (by simpa using hkept i),
      triggerAt_congr (s := s) (by simpa using hslot) (by simp) (by simp),
      slotJudged_congr (s := s) (by simpa using hslot) (by simp), takeTriggers_slots, ← takeTriggers_with_slots,
      ← takeTriggers_append, slotsFired_append_singleton test s hnew, List.filterMap_append]
    cases h : triggerAt test s i <;> simp [h]

/-- A firing judgement whose test does not look at the state, on a converter in range and with no entry to remove a slot
it picks out. -/
theorem fireAmong_eq (test : Slot → Bool) {s : State} (hfits : ConverterFits s)
    (hkept : ∀ i, test i = true → ∀ e ∈ s.commits, e.removes i = false) :
    fireAmong (fun _ i => test i) s =
      deliverAll (turnedAway s ((List.finRange 32).filterMap (triggerAt test s))) (.missed .queueFull)
        { s with
          slots := slotsFired (fun i r => test i && firesNow s r) s.tb.seq s.slots
          conv := convAfter s ((List.finRange 32).filterMap (triggerAt test s)) } := by
  have hall : firesAmong test (List.finRange 32) s = fun i r => test i && firesNow s r := by
    funext i r
    simp [firesAmong]
  rw [fireAmong, judgeSlots_eq test (List.nodup_finRange 32) hkept, hall,
    takeTriggers_with_slots, takeTriggers_eq hfits triggerTime_of_mem, ← deliverAll_with_slots]

end Sys2Proof.Machine
end

section
/-! SUPPORT. The commit list's response to a boundary as one state equation, and what it says of each field (spec/05 R72,
R73, R78). -/

namespace Sys2Proof.Machine

/-! ### The response in terms of the state before it -/

/-- The entries that a response applies: the unheld ones. -/
def appliedEntries (s : State) : List Entry := s.commits.filter fun e => !e.held

/-- The triggers of the slots that a response makes LIVE and fires, in ascending slot order. -/
def commitTriggers (s : State) : List ConvRequest :=
  (List.finRange 32).filterMap fun i =>
    s.slots[i].bind fun r =>
      if (appliedEntries s).any (fun e => e.adds i) && firesNow s { r with state := .live } then some (triggerNow s i r)
      else none

/-- The slots after a response: its removed slots EMPTY, its added ones LIVE and fired if they are due. -/
def commitSlots (s : State) : Vector (Option SlotRec) 32 :=
  tabulate fun i =>
    if (appliedEntries s).any fun e => e.removes i then none
    else if (appliedEntries s).any fun e => e.adds i then
      s.slots[i].bind fun r =>
        if firesNow s { r with state := .live } then SlotRec.afterFiring s.tb.seq { r with state := .live }
        else some { r with state := .live }
    else s.slots[i]

theorem commitSlots_getElem (s : State) (i : Slot) :
    (commitSlots s)[i] =
      if (appliedEntries s).any fun e => e.removes i then none
      else if (appliedEntries s).any fun e => e.adds i then
        s.slots[i].bind fun r =>
          if firesNow s { r with state := .live } then SlotRec.afterFiring s.tb.seq { r with state := .live }
          else some { r with state := .live }
      else s.slots[i] :=
  tabulate_getElem _ i.val i.isLt

/-- A slot that an entry adds has no entry that removes it: it is STAGED, not RETIRING (R70). -/
theorem not_removes_of_adds {s : State} (hsound : EntriesSound s) {i : Slot} {a e : Entry} (ha : a ∈ s.commits)
    (hadds : a.adds i = true) (he : e ∈ s.commits) : e.removes i = false := by
  obtain ⟨htarget, -, -⟩ := hsound
  rw [Bool.eq_false_iff]
  intro hremoves
  have hadd := htarget a ha
  have hremove := htarget e he
  simp only [targetSound, of_decide_eq_true hadds, of_decide_eq_true hremoves] at hadd hremove
  obtain ⟨r, hr, hstaged, -⟩ := hadd
  obtain ⟨r', hr', hretiring, -⟩ := hremove
  cases Option.mem_unique hr hr'
  exact nomatch hstaged.symm.trans hretiring

/-- No entry of the list removes a slot that the response adds. -/
theorem not_removes_of_any_adds {s : State} (hsound : EntriesSound s) {i : Slot}
    (hadds : ((appliedEntries s).any fun e => e.adds i) = true) : ∀ e ∈ s.commits, e.removes i = false := by
  obtain ⟨a, ha, hai⟩ := List.any_eq_true.mp hadds
  exact fun e he => not_removes_of_adds hsound (List.mem_of_mem_filter ha) hai he

theorem lanesAfterSets_congr {s t : State} (htrips : t.trips = s.trips) (hlanes : t.lanes = s.lanes)
    (es : List Entry) : lanesAfterSets t es = lanesAfterSets s es := by
  have hforce : ∀ k : Line, inForce t k = inForce s k := fun k => by rw [inForce, inForce, htrips]
  simp only [lanesAfterSets, hlanes, laneAfterSet_congr hforce]

theorem turnedAway_congr {s t : State} (hconv : t.conv = s.conv) (rs : List ConvRequest) :
    turnedAway t rs = turnedAway s rs := by
  simp only [turnedAway, hconv]

theorem convAfter_congr {s t : State} (hconv : t.conv = s.conv) (hpins : t.pins = s.pins) (rs : List ConvRequest) :
    convAfter t rs = convAfter s rs := by
  simp only [convAfter, hconv, hpins]

section Response

variable {s : State}

/-- A slot that the response adds is its old record made LIVE, as the entries leave it. -/
theorem slotsAfterEntries_of_adds (hsound : EntriesSound s) {i : Slot}
    (hadds : ((appliedEntries s).any fun e => e.adds i) = true) :
    (slotsAfterEntries (appliedEntries s) s.slots)[i] = s.slots[i].map fun r => { r with state := .live } := by
  have hremoves : ((appliedEntries s).any fun e => e.removes i) = false :=
    List.any_eq_false.mpr fun e he => by
      simp [not_removes_of_any_adds hsound hadds e (List.mem_of_mem_filter he)]
  rw [slotsAfterEntries_getElem, hremoves, hadds]
  rfl

/-- The triggers of a response, from the slots as its entries left them. -/
theorem commitTriggers_eq (hsound : EntriesSound s) {t : State}
    (hslots : t.slots = slotsAfterEntries (appliedEntries s) s.slots) (htb : t.tb = s.tb)
    (hstamp : t.tickStamp = s.tickStamp) :
    (List.finRange 32).filterMap (triggerAt (fun i => (appliedEntries s).any fun e => e.adds i) t) =
      commitTriggers s := by
  refine List.filterMap_congr fun i _ => ?_
  rw [triggerAt, hslots, firesNow_congr htb]
  cases hadds : (appliedEntries s).any fun e => e.adds i with
  | false => simp
  | true =>
    rw [slotsAfterEntries_of_adds hsound hadds, Option.bind_map]
    simp [triggerNow, htb, hstamp]

/-- The slots after a response, from the slots as its entries left them. -/
theorem commitSlots_eq :
    slotsFired (fun i r => ((appliedEntries s).any fun e => e.adds i) && firesNow s r) s.tb.seq
      (slotsAfterEntries (appliedEntries s) s.slots) = commitSlots s := by
  refine table_ext fun i => ?_
  rw [slotsFired_getElem, slotsAfterEntries_getElem, commitSlots_getElem]
  cases hremoves : (appliedEntries s).any fun e => e.removes i with
  | true => simp
  | false =>
    cases hadds : (appliedEntries s).any fun e => e.adds i with
    | true => simp [Option.bind_map]
    | false => simp

/-- The state of a response before its entries are applied: they have left the list. -/
def entriesTaken (s : State) : State :=
  { s with commits := s.commits.filter fun e => e.held, due := { s.due with commit := false } }

/-- The state of a response after its entries are applied. -/
def entriesApplied (s : State) : State :=
  { entriesTaken s with
    lanes := (lanesAfterSets s (appliedEntries s)).1
    trips := linesTold (lanesAfterSets s (appliedEntries s)).2 s.trips
    delivery := deliveryTold (lanesAfterSets s (appliedEntries s)).2 s
    slots := slotsAfterEntries (appliedEntries s) s.slots }

theorem applyEntries_eq_entriesApplied :
    (appliedEntries s).foldl applyEntry (entriesTaken s) = entriesApplied s := by
  rw [applyEntries_eq, tellTrips_eq, lanesAfterSets_congr (s := s) (t := entriesTaken s) rfl rfl]
  rfl

/-- The commit list's response as one equation: the entries applied, the added slots fired with the surplus triggers
turned away, the groups reported. -/
theorem applyCommits_eq (hsound : EntriesSound s) (hfits : ConverterFits s) :
    applyCommits s =
      reportGroups (appliedEntries s)
        (deliverAll (turnedAway s (commitTriggers s)) (.missed .queueFull)
          { entriesApplied s with slots := commitSlots s, conv := convAfter s (commitTriggers s) }) := by
  have hkept : ∀ i, ((appliedEntries s).any fun e => e.adds i) = true →
      ∀ e ∈ (entriesApplied s).commits, e.removes i = false :=
    fun i hadds e he => not_removes_of_any_adds hsound hadds e (List.mem_of_mem_filter he)
  have htriggers := commitTriggers_eq hsound (t := entriesApplied s) rfl rfl rfl
  calc applyCommits s
      = reportGroups (appliedEntries s) (fireAmong (fun _ i => (appliedEntries s).any fun e => e.adds i)
          ((appliedEntries s).foldl applyEntry (entriesTaken s))) := rfl
    _ = _ := by
      rw [applyEntries_eq_entriesApplied, fireAmong_eq _ (s := entriesApplied s) hfits hkept, htriggers,
        turnedAway_congr (s := s) (t := entriesApplied s) rfl,
        convAfter_congr (s := s) (t := entriesApplied s) rfl rfl, firesNow_congr (s := s) (t := entriesApplied s) rfl,
        ← commitSlots_eq]
      rfl

end Response

end Sys2Proof.Machine
end

section
/-! SUPPORT. The delivery records after the commit list's response: its TRIP events and GROUP_APPLIED in the event queues,
the QUEUE_FULL records in the result queues (spec/05 R78, spec/07 R105, spec/08 R123 to R126). -/

namespace Sys2Proof.Machine

/-! ### The two queues of a port do not affect one another -/

section Push

variable {d d' : Delivery}

theorem Delivery.pushEvent_results (d : Delivery) (e : Event) (seq : Nat) :
    (d.pushEvent e seq).results = d.results ∧ (d.pushEvent e seq).lostResults = d.lostResults := by
  unfold Delivery.pushEvent
  split <;> exact ⟨rfl, rfl⟩

theorem Delivery.pushEvent_events_congr (e : Event) (seq : Nat)
    (h : d.events = d'.events ∧ d.lostEvents = d'.lostEvents) :
    (d.pushEvent e seq).events = (d'.pushEvent e seq).events ∧
      (d.pushEvent e seq).lostEvents = (d'.pushEvent e seq).lostEvents := by
  obtain ⟨hevents, hlost⟩ := h
  unfold Delivery.pushEvent
  rw [hevents, hlost]
  split <;> exact ⟨rfl, rfl⟩

theorem Delivery.pushResult_results_congr (r : ResultRec)
    (h : d.results = d'.results ∧ d.lostResults = d'.lostResults) :
    (d.pushResult r).results = (d'.pushResult r).results ∧
      (d.pushResult r).lostResults = (d'.pushResult r).lostResults := by
  obtain ⟨hresults, hlost⟩ := h
  unfold Delivery.pushResult
  rw [hresults, hlost]
  split <;> exact ⟨rfl, rfl⟩

theorem Delivery.pushTrips_results (p : Port) (seq : Nat) (xs : List (Port × Line × Lane)) (d : Delivery) :
    (d.pushTrips p seq xs).results = d.results ∧ (d.pushTrips p seq xs).lostResults = d.lostResults := by
  unfold Delivery.pushTrips
  generalize xs.filter (fun x => decide (x.1 = p)) = ys
  induction ys generalizing d with
  | nil => exact ⟨rfl, rfl⟩
  | cons y ys ih =>
    obtain ⟨hresults, hlost⟩ := ih (d.pushEvent (.trip y.2.1 ((Vector.replicate 16 false).set y.2.2 true)) seq)
    obtain ⟨hresults', hlost'⟩ := d.pushEvent_results (.trip y.2.1 ((Vector.replicate 16 false).set y.2.2 true)) seq
    exact ⟨hresults.trans hresults', hlost.trans hlost'⟩

end Push

/-- TRIP events leave the result queues and their tallies alone. -/
theorem deliveryTold_results (xs : List (Port × Line × Lane)) (s : State) (p : Port) :
    (deliveryTold xs s)[p].results = s.delivery[p].results ∧
      (deliveryTold xs s)[p].lostResults = s.delivery[p].lostResults := by
  rw [deliveryTold_getElem]
  split
  · exact Delivery.pushTrips_results _ _ _ _
  · exact ⟨rfl, rfl⟩

/-! ### What result records do depends on the sessions and the result queues only -/

/-- Two states with the same sessions, result queues and tallies of lost results. -/
def SameResults (s t : State) : Prop :=
  t.sessions = s.sessions ∧
    ∀ p : Port, t.delivery[p].results = s.delivery[p].results ∧ t.delivery[p].lostResults = s.delivery[p].lostResults

theorem SameResults.placeResult {s t : State} (h : SameResults s t) (p : Port) (r : ResultRec) :
    SameResults (placeResult p r s) (placeResult p r t) := by
  obtain ⟨hsessions, hresults⟩ := h
  have hopen : isOpen t p = isOpen s p := by rw [isOpen, isOpen, hsessions]
  unfold Machine.placeResult
  rw [hopen]
  split
  · refine ⟨hsessions, fun q => ?_⟩
    by_cases hq : q = p
    · subst hq
      simpa using Delivery.pushResult_results_congr r (hresults q)
    · simpa [update_getElem_of_ne _ _ hq] using hresults q
  · exact ⟨hsessions, hresults⟩

theorem SameResults.deliverFor {s t : State} (h : SameResults s t) (r : ConvRequest) (st : ResultStatus) :
    SameResults (deliverFor r st s) (deliverFor r st t) := by
  unfold Machine.deliverFor
  split
  · exact h
  · exact h.placeResult _ _

theorem SameResults.deliverAll {s t : State} (h : SameResults s t) (rs : List ConvRequest) (st : ResultStatus) :
    SameResults (deliverAll rs st s) (deliverAll rs st t) := by
  induction rs generalizing s t with
  | nil => exact h
  | cons r rs ih => exact ih (h.deliverFor r st)

/-! ### The response -/

/-- A port's delivery record after the reports: GROUP_APPLIED to an OPEN port whose group is to be reported (R78). -/
theorem reportGroups_delivery (es : List Entry) (s : State) (p : Port) :
    (reportGroups es s).delivery[p] =
      if s.groupReport[p] && isOpen s p then
        s.delivery[p].pushEvent (.groupApplied (releasedOf p es)) s.tb.seq
      else s.delivery[p] := by
  refine (emit_delivery _ s p.val p.isLt).trans ?_
  cases hreport : s.groupReport[p] <;> simp

/-- A port's events told by the commit list's response: the TRIP events of its lanes, then GROUP_APPLIED if its group is
to be reported; nothing to a port whose session is not OPEN (R64, R78, R126). -/
def commitTold (s : State) (p : Port) : Delivery :=
  if s.sessions[p].state ≠ .opened then s.delivery[p]
  else if s.groupReport[p] = true then
    (s.delivery[p].pushTrips p s.tb.seq (lanesAfterSets s (appliedEntries s)).2).pushEvent
      (.groupApplied (releasedOf p (appliedEntries s))) s.tb.seq
  else s.delivery[p].pushTrips p s.tb.seq (lanesAfterSets s (appliedEntries s)).2

section Response

variable {s : State} (hsound : EntriesSound s) (hfits : ConverterFits s)

include hsound hfits

/-- The fields of the state that the response leaves, the delivery records aside. -/
theorem applyCommits_fields :
    ∃ d, applyCommits s =
      { entriesApplied s with
        slots := commitSlots s
        conv := convAfter s (commitTriggers s)
        groupReport := Vector.replicate 4 false
        delivery := d } := by
  obtain ⟨d, hd⟩ := deliverAll_frame (turnedAway s (commitTriggers s)) (.missed .queueFull)
    { entriesApplied s with slots := commitSlots s, conv := convAfter s (commitTriggers s) }
  rw [applyCommits_eq hsound hfits, hd]
  exact ⟨_, rfl⟩

/-- The result queues after the response: the triggers turned away leave their records. -/
theorem applyCommits_results (p : Port) :
    (applyCommits s).delivery[p].results =
        (deliverAll (turnedAway s (commitTriggers s)) (.missed .queueFull) s).delivery[p].results ∧
      (applyCommits s).delivery[p].lostResults =
        (deliverAll (turnedAway s (commitTriggers s)) (.missed .queueFull) s).delivery[p].lostResults := by
  have hbefore : SameResults s
      { entriesApplied s with slots := commitSlots s, conv := convAfter s (commitTriggers s) } :=
    ⟨rfl, deliveryTold_results (lanesAfterSets s (appliedEntries s)).2 s⟩
  obtain ⟨-, hdelivered⟩ := hbefore.deliverAll (turnedAway s (commitTriggers s)) (.missed .queueFull)
  obtain ⟨hresults, hlost⟩ := hdelivered p
  rw [applyCommits_eq hsound hfits]
  obtain ⟨hresults', hlost'⟩ := emit_results _ _ p.val p.isLt
  exact ⟨hresults'.trans hresults, hlost'.trans hlost⟩

/-- The event queues after the response. -/
theorem applyCommits_events (p : Port) :
    (applyCommits s).delivery[p].events = (commitTold s p).events ∧
      (applyCommits s).delivery[p].lostEvents = (commitTold s p).lostEvents := by
  obtain ⟨d, hd⟩ := deliverAll_frame (turnedAway s (commitTriggers s)) (.missed .queueFull)
    { entriesApplied s with slots := commitSlots s, conv := convAfter s (commitTriggers s) }
  have hbefore := deliverAll_events (turnedAway s (commitTriggers s)) (.missed .queueFull)
    { entriesApplied s with slots := commitSlots s, conv := convAfter s (commitTriggers s) } p.val p.isLt
  rw [hd] at hbefore
  have htold : d[p].events = (deliveryTold (lanesAfterSets s (appliedEntries s)).2 s)[p].events ∧
      d[p].lostEvents = (deliveryTold (lanesAfterSets s (appliedEntries s)).2 s)[p].lostEvents := hbefore
  rw [deliveryTold_getElem] at htold
  have hreported : (applyCommits s).delivery[p] =
      if s.groupReport[p] && isOpen s p then
        d[p].pushEvent (.groupApplied (releasedOf p (appliedEntries s))) s.tb.seq
      else d[p] := by
    rw [applyCommits_eq hsound hfits, hd, reportGroups_delivery]
    rfl
  rw [hreported]
  by_cases hopen : s.sessions[p].state = .opened
  · have hisOpen : isOpen s p = true := decide_eq_true hopen
    rw [if_pos hisOpen] at htold
    rw [commitTold, if_neg (not_not_intro hopen), hisOpen, Bool.and_true]
    split
    · exact Delivery.pushEvent_events_congr _ _ htold
    · exact htold
  · have hisOpen : isOpen s p = false := decide_eq_false hopen
    rw [hisOpen, if_neg Bool.false_ne_true] at htold
    rw [commitTold, if_pos hopen, hisOpen, Bool.and_false, if_neg Bool.false_ne_true]
    exact htold

end Response

end Sys2Proof.Machine
end

section
/-! SUPPORT. COMMIT_APPLY: the commit list's response to a frame boundary (spec/05 5.2 and 5.3). -/

namespace Sys2Proof.Machine

/-- Out of reset, with no SYNC_LOCKED waiting, COMMIT_APPLY is the commit list's response, if it is due. -/
theorem exec_commitApply {s : State} (h : Awake s) : exec .commitApply s = .next (takeCommits s) :=
  congrArg Host.Outcome.next (happens_of_awake takeCommits s h)

/-- A lane that an unheld LANE_SET is for has an owner (R70). -/
theorem owner_of_settingsFor {s : State} (hsound : EntriesSound s) (l : Lane) :
    ∀ e ∈ appliedEntries s, e.settingsFor l ≠ none → s.lanes[l].status.owner? ≠ none := by
  obtain ⟨htarget, -, -⟩ := hsound
  intro e he hfor
  obtain ⟨m, w, ha⟩ | ha := e.laneSet_or_other
  · have hm : m = l := by
      by_contra hm
      exact hfor ((Entry.settingsFor_laneSet ha).trans (if_neg hm))
    subst hm
    have howner := htarget e (List.mem_of_mem_filter he)
    simp only [targetSound, ha] at howner
    rw [howner]
    exact Option.some_ne_none _
  · exact absurd (Entry.settingsFor_other ha) hfor

/-- Each lane after the response, by the last unheld LANE_SET for it. -/
theorem lane_after_commits {s : State} (hsound : EntriesSound s) (l : Lane) :
    match ((appliedEntries s).filterMap (Entry.settingsFor l)).getLast? with
    | none => (lanesAfterSets s (appliedEntries s)).1[l] = s.lanes[l]
    | some w =>
        (lanesAfterSets s (appliedEntries s)).1[l].settings = w ∧
          (lanesAfterSets s (appliedEntries s)).1[l].status.owner? = s.lanes[l].status.owner? := by
  have hsettings := lanesAfterSets_settings (appliedEntries s) s l (owner_of_settingsFor hsound l)
  cases hlast : ((appliedEntries s).filterMap (Entry.settingsFor l)).getLast? with
  | none =>
    rw [List.getLast?_eq_none_iff, List.filterMap_eq_nil_iff] at hlast
    exact lanesAfterSets_of_none (appliedEntries s) s l hlast
  | some w =>
    rw [hlast] at hsettings
    exact ⟨hsettings, lanesAfterSets_owner (appliedEntries s) s l⟩

/-- Settles O14: `applyCommits_fields` gives every field of the state after the response but the delivery records, whose
two queues `applyCommits_results` and `applyCommits_events` give. -/
theorem commitListApplies : Obligations.CommitListApplies := by
  intro s awake
  refine ⟨fun hnot => by rw [exec_commitApply awake, takeCommits_of_not_due s hnot], fun hdue hsound hfits => ?_⟩
  refine ⟨applyCommits s, by rw [exec_commitApply awake, takeCommits, if_pos hdue], ?_⟩
  beta_reduce
  intro applied fires adds triggers
  obtain ⟨d, hfields⟩ := applyCommits_fields hsound hfits
  refine ⟨?commits, ?reports, ?lane, ?slots, ?converter, ?lanes, ?lines, ?delivery, ?frame⟩
  case commits => rw [hfields]; rfl
  case reports => intro p; rw [hfields]; exact Vector.getElem_replicate _
  case lane => intro l; rw [hfields]; exact lane_after_commits hsound l
  case slots => intro i; rw [hfields]; exact commitSlots_getElem s i
  case converter => rw [hfields]; rfl
  case lanes => rw [hfields]; rfl
  case lines => intro k; rw [hfields]; exact tabulate_getElem _ k.val k.isLt
  case delivery =>
    intro p
    obtain ⟨hresults, hlostResults⟩ := applyCommits_results hsound hfits p
    exact ⟨hresults, hlostResults, applyCommits_events hsound hfits p⟩
  case frame => rw [hfields]; rfl

end Sys2Proof.Machine
end

section
/-! SUPPORT. Handing records over: a port's two queues and tallies after one record, and the records of a run of requests
(spec/08 R123 to R126, spec/07 R112). -/

namespace Sys2Proof.Machine

/-! ### One record handed to an OPEN port -/

section Push

/-- A tally counts one more record up to its bound and stays there (R124). -/
theorem min_tallyMax_succ (n : Nat) : min Config.tallyMax (n + 1) = if n < 255 then n + 1 else 255 := by
  unfold Config.tallyMax
  split <;> omega

variable {d : Delivery}

/-- An event enters a queue with room at its tail with the tally as lost_before; a full queue counts it (R124, R125). -/
theorem Delivery.pushEvent_eq (e : Event) (seq : Nat) :
    d.pushEvent e seq =
      if d.events.length < 8 then
        { d with events := d.events ++ [{ event := e, seq := seq, lostBefore := d.lostEvents }], lostEvents := 0 }
      else { d with lostEvents := if d.lostEvents < 255 then d.lostEvents + 1 else 255 } := by
  rw [← min_tallyMax_succ]
  rfl

/-- A result record enters a queue with room at its tail with the tally as lost_before; a full queue counts it
(R124, R125). -/
theorem Delivery.pushResult_eq (r : ResultRec) :
    d.pushResult r =
      if d.results.length < 16 then
        { d with results := d.results ++ [{ r with lostBefore := d.lostResults }], lostResults := 0 }
      else { d with lostResults := if d.lostResults < 255 then d.lostResults + 1 else 255 } := by
  rw [← min_tallyMax_succ]
  rfl

end Push

/-! ### One record handed to a port in any session state -/

section Handed

variable {s : State} {p : Port}

theorem isOpen_iff : isOpen s p = true ↔ s.sessions[p].state = .opened := decide_eq_true_iff

/-- A result record changes the delivery record of an OPEN port, and nothing else. -/
theorem placeResult_of_open (r : ResultRec) (h : s.sessions[p].state = .opened) :
    placeResult p r s = { s with delivery := update s.delivery p fun d => d.pushResult r } :=
  if_pos (isOpen_iff.mpr h)

/-- A result record for a port whose session is not OPEN is discarded (R126). -/
theorem placeResult_of_not_open (r : ResultRec) (h : s.sessions[p].state ≠ .opened) : placeResult p r s = s :=
  if_neg (mt isOpen_iff.mp h)

/-- A result record for one port does not touch the queues of another. -/
theorem placeResult_delivery_of_ne (r : ResultRec) {q : Port} (h : q ≠ p) :
    (placeResult p r s).delivery[q] = s.delivery[q] := by
  by_cases hopen : s.sessions[p].state = .opened
  · rw [placeResult_of_open r hopen]
    exact update_getElem_of_ne _ _ h
  · rw [placeResult_of_not_open r hopen]

/-- The delivery record of a result record's port after it. -/
theorem placeResult_delivery_self (r : ResultRec) :
    (placeResult p r s).delivery[p] =
      if s.sessions[p].state = .opened then s.delivery[p].pushResult r else s.delivery[p] := by
  split
  case isTrue hopen =>
    rw [placeResult_of_open r hopen]
    exact update_getElem_self _ _ _
  case isFalse hopen => rw [placeResult_of_not_open r hopen]

end Handed

/-! ### The statement -/

/-- Settles O30: `emit_delivery` and `placeResult_delivery_self` give each port's delivery record by its session state,
`Delivery.pushEvent_eq` and `Delivery.pushResult_eq` by the room in its queue. -/
theorem recordsPlaced : Obligations.RecordsPlaced := by
  refine ⟨fun f s => ⟨rfl, fun p => ?event⟩, fun p r s => ⟨?frame, ?others, ?result⟩, fun _ _ => rfl, ?run⟩
  case event =>
    refine (emit_delivery f s p.val p.isLt).trans ?_
    cases f p with
    | none => rfl
    | some e =>
      simp only [isOpen_iff, ← Delivery.pushEvent_eq]
      rfl
  case frame =>
    obtain ⟨d, hplaced⟩ := placeResult_frame p r s
    rw [hplaced]
  case others => exact fun q hq => placeResult_delivery_of_ne r hq
  case result =>
    rw [placeResult_delivery_self, Delivery.pushResult_eq]
  case run =>
    intro r rs status s
    rw [deliverAll_cons, deliverFor]
    cases r.owner with
    | none => rfl
    | some p => rfl

end Sys2Proof.Machine
end

section
/-! SUPPORT. Trip lines: what `trip_claim` answers and changes, by the line's ownership (spec/09 R141). -/

namespace Sys2Proof.Machine

/-- A number of 4 or more names no line. -/
theorem lineOf?_of_le {n : Nat} (h : 4 ≤ n) : lineOf? n = none := dif_neg (by omega)

/-- A line's own number names it. -/
@[simp] theorem lineOf?_val (k : Line) : lineOf? k.val = some k := dif_pos k.isLt

/-! ### The claim of a line by its ownership -/

section ClaimLine

variable {p : Port} {k : Line} {s : State}

/-- A FREE line is claimed: it is judged anew under the settings of a part reset. -/
theorem claimLine_of_free (h : s.trips[k].ownership = .free) :
    claimLine p k s = okWith (claimAnswer .idle false)
      { s with trips := s.trips.set k { TripLine.reset with ownership := .owned p } } := by
  unfold claimLine
  rw [h]

/-- An ORPHANED line is taken over as it stands: only its owner changes. -/
theorem claimLine_of_orphaned (h : s.trips[k].ownership = .orphaned) :
    claimLine p k s = okWith (claimAnswer s.trips[k].detect true)
      { s with trips := s.trips.set k { s.trips[k] with ownership := .owned p } } := by
  unfold claimLine
  rw [h]
  rfl

/-- A line with an owner stays as it is: the owner is told its detect state, another port its owner. -/
theorem claimLine_of_owned {q : Port} (h : s.trips[k].ownership = .owned q) :
    claimLine p k s =
      if q = p then okWith (claimAnswer s.trips[k].detect false) s
      else (s, { status := .held, payload := [portByte q] }) := by
  unfold claimLine
  rw [h]

end ClaimLine

/-! ### The command -/

section TripClaim

variable {p : Port} {tag : Nat} {k : Line} {s : State}

/-- The row of `trip_claim`. -/
theorem exec_tripClaim (p : Port) (tag line : Nat) (s : State) :
    exec (.tripClaim p tag line) s = .next (whileRunning (takeRequest p tag fun _ => cmdTripClaim p line) s) := rfl

/-- `trip_claim` of a ready port with a number that names no line is refused with RANGE. -/
theorem exec_tripClaim_of_range {line : Nat} (ready : Ready s p) (hline : 4 ≤ line) :
    exec (.tripClaim p tag line) s = refused p tag .range s := by
  refine exec_eq_replied_of_verdict (exec_tripClaim p tag line s) ready ?_
  simp only [lineOf?_of_le hline, refuse]

/-- `trip_claim` of a ready port for a line, from the line's verdict: its status and payload are the reply. -/
theorem exec_tripClaim_of_verdict {t : State} {st : Status} {bytes : List Byte} (ready : Ready s p)
    (hline : claimLine p k (heard p s) = (t, { status := st, payload := bytes })) :
    exec (.tripClaim p tag k.val) s = .next (replied p tag st bytes t) := by
  refine exec_eq_replied_of_verdict (exec_tripClaim p tag k.val s) ready ?_
  simp only [lineOf?_val, hline]

/-- `trip_claim` of a line with an owner leaves the line as it is: the owner reads its detect state, any other port HELD
with the owner's number. -/
theorem exec_tripClaim_of_owned {q : Port} (ready : Ready s p) (howned : s.trips[k].ownership = .owned q) :
    exec (.tripClaim p tag k.val) s =
      if q = p then .next (replied p tag .ok (claimAnswer s.trips[k].detect false) (heard p s))
      else .next (replied p tag .held [portByte q] (heard p s)) := by
  have hline := claimLine_of_owned (p := p) (s := heard p s) howned
  split
  case isTrue hself => exact exec_tripClaim_of_verdict ready (hline.trans (if_pos hself))
  case isFalse hother => exact exec_tripClaim_of_verdict ready (hline.trans (if_neg hother))

end TripClaim

/-- Settles O44: RANGE first, then one rule per ownership of the line. -/
theorem tripClaim : Obligations.TripClaim := by
  intro p tag line s ready
  refine ⟨exec_tripClaim_of_range ready, ?_⟩
  rintro k rfl
  cases hownership : s.trips[k].ownership with
  | free => exact exec_tripClaim_of_verdict ready (claimLine_of_free (s := heard p s) hownership)
  | orphaned => exact exec_tripClaim_of_verdict ready (claimLine_of_orphaned (s := heard p s) hownership)
  | owned q => exact exec_tripClaim_of_owned ready hownership

end Sys2Proof.Machine
end

section
/-! SUPPORT. Trip lines: what `trip_rearm` answers and changes for the lane set a request carries (spec/09 R144). -/

namespace Sys2Proof.Machine

/-! ### The lane set of a request -/

/-- A lane is in the set of a number when the number's bit for it is set (R172). -/
@[simp] theorem laneSetOf_getElem (n i : Nat) (h : i < 16) : (laneSetOf n)[i] = n.testBit i :=
  setOf_getElem _ i h

/-- The check for the empty set: of the numbers of two bytes, 0 alone is it. -/
theorem laneSetOf_empty_iff {n : Nat} (h : n < 65536) : (!nonempty (laneSetOf n)) = true ↔ n = 0 := by
  rw [Bool.not_eq_true', ← Bool.not_eq_true, nonempty_eq_true, not_iff_comm]
  constructor
  · intro hn
    obtain ⟨i, hi⟩ := Nat.exists_testBit_of_ne_zero hn
    have hpow : 2 ^ i < 2 ^ 16 := (Nat.ge_two_pow_of_testBit hi).trans_lt h
    have hlt : i < 16 := (Nat.pow_lt_pow_iff_right (by decide)).mp hpow
    exact ⟨⟨i, hlt⟩, (laneSetOf_getElem n i hlt).trans hi⟩
  · rintro ⟨l, hl⟩ rfl
    simp at hl

/-- Port p owns every lane of the set of a number. -/
def OwnsLanes (s : State) (p : Port) (n : Nat) : Prop :=
  ∀ l : Lane, n.testBit l.val = true → s.lanes[l].status.owner? = some p

/-- The check for a lane of the set that the requester does not own. -/
theorem laneSetOf_foreign_iff {s : State} {p : Port} {n : Nat} :
    (!everyId fun l => !(laneSetOf n)[l] || ownsLane s p l) = true ↔ ¬ OwnsLanes s p n := by
  rw [Bool.not_eq_true', ← Bool.not_eq_true, everyId_eq_true]
  simp [OwnsLanes, ownsLane, or_iff_not_imp_left]

/-! ### The lines that stand in the way -/

/-- A line stands in the way when it is in force and a TRIPPED lane of the set names it. -/
theorem stillAsserted_laneSetOf (s : State) (n : Nat) :
    stillAsserted s (laneSetOf n) = Vector.ofFn fun k => inForce s k && decide
      (∃ l : Lane, (n.testBit l.val && s.lanes[l].status.isTripped) = true ∧
        s.lanes[l].settings.tripMask[k] = true) := by
  refine congrArg Vector.ofFn (funext fun k => ?_)
  congr 1
  rw [Bool.eq_iff_iff, someId_eq_true, decide_eq_true_iff]
  simp

/-- The TRIPPED lanes of the set of a number. -/
theorem trippedOf_laneSetOf (s : State) (n : Nat) :
    trippedOf s (laneSetOf n) = Vector.ofFn fun l => n.testBit l.val && s.lanes[l].status.isTripped := by
  simp [trippedOf, setOf]

/-! ### The lanes rearmed -/

section Rearm

variable {s : State} {n : Nat} {l : Lane}

/-- Each lane after the rearm of the set of a number. -/
theorem rearmLanes_lanes (n : Nat) (s : State) (l : Lane) :
    (rearmLanes (laneSetOf n) s).lanes[l] = if n.testBit l.val then s.lanes[l].rearmed else s.lanes[l] := by
  refine (tabulate_getElem _ l.val l.isLt).trans ?_
  simp

/-- A TRIPPED lane of the set gets rearm_pending, one outside it keeps the flag it has. -/
theorem rearmLanes_of_tripped {q : Port} {cause : LineSet} {rearm : Bool}
    (h : s.lanes[l].status = .tripped q cause rearm) :
    (rearmLanes (laneSetOf n) s).lanes[l] =
      { s.lanes[l] with status := .tripped q cause (rearm || n.testBit l.val) } := by
  rw [rearmLanes_lanes]
  split
  case isTrue hin => rw [LaneRec.rearmed, h, hin, Bool.or_true]
  case isFalse hout => rw [Bool.eq_false_iff.mpr hout, Bool.or_false, ← h]

/-- A lane that is not TRIPPED stays as it is, in the set or not. -/
theorem rearmLanes_of_not_tripped (h : s.lanes[l].status.isTripped = false) :
    (rearmLanes (laneSetOf n) s).lanes[l] = s.lanes[l] := by
  rw [rearmLanes_lanes, ite_eq_right_iff]
  intro _
  unfold LaneRec.rearmed
  split
  case h_3 hstatus => rw [hstatus] at h; cases h
  all_goals rfl

/-- The rearm of a set writes the lanes only. -/
theorem rearmLanes_eq {lanes : Vector LaneRec 16} (h : ∀ l : Lane, (rearmLanes (laneSetOf n) s).lanes[l] = lanes[l]) :
    rearmLanes (laneSetOf n) s = { s with lanes := lanes } := by
  rw [← table_ext h]
  rfl

end Rearm

/-! ### The command -/

section TripRearm

variable {p : Port} {tag lanes : Nat} {s : State}

/-- The row of `trip_rearm`. -/
theorem exec_tripRearm (p : Port) (tag lanes : Nat) (s : State) :
    exec (.tripRearm p tag lanes) s = .next (whileRunning (takeRequest p tag fun _ => cmdTripRearm p lanes) s) := rfl

/-- `trip_rearm` of the empty set is refused with RANGE. -/
theorem exec_tripRearm_of_empty (ready : Ready s p) : exec (.tripRearm p tag 0) s = refused p tag .range s :=
  exec_eq_replied_of_verdict (exec_tripRearm p tag 0 s) ready
    (if_pos ((laneSetOf_empty_iff (by decide)).mpr rfl))

variable (ready : Ready s p) (hword : lanes < 65536) (hset : lanes ≠ 0)

include ready hword hset

/-- `trip_rearm` of a set with a lane that the requester does not own is refused with NOT_OWNER. -/
theorem exec_tripRearm_of_foreign (hforeign : ¬ OwnsLanes s p lanes) :
    exec (.tripRearm p tag lanes) s = refused p tag .notOwner s :=
  exec_eq_replied_of_verdict (exec_tripRearm p tag lanes s) ready
    ((if_neg (mt (laneSetOf_empty_iff hword).mp hset)).trans
      (if_pos (laneSetOf_foreign_iff.mpr hforeign)))

/-- The verdict on a set of the requester's own lanes turns on the lines that stand in the way. -/
theorem exec_tripRearm_of_owned {t : State} {st : Status} {bytes : List Byte} (howned : OwnsLanes s p lanes)
    (hverdict :
      (if nonempty (stillAsserted s (laneSetOf lanes)) then
        (heard p s, { status := .stillAsserted, payload := [setByte (stillAsserted s (laneSetOf lanes))] })
      else okWith (laneSetBytes (trippedOf s (laneSetOf lanes))) (rearmLanes (laneSetOf lanes) (heard p s))) =
        (t, { status := st, payload := bytes })) :
    exec (.tripRearm p tag lanes) s = .next (replied p tag st bytes t) :=
  exec_eq_replied_of_verdict (exec_tripRearm p tag lanes s) ready
    ((if_neg (mt (laneSetOf_empty_iff hword).mp hset)).trans
      ((if_neg (not_not_intro howned ∘ laneSetOf_foreign_iff.mp)).trans hverdict))

/-- `trip_rearm` while a line stands in the way: STILL_ASSERTED, with all such lines. -/
theorem exec_tripRearm_of_asserted (howned : OwnsLanes s p lanes)
    (hasserted : ∃ k : Line, (stillAsserted s (laneSetOf lanes))[k] = true) :
    exec (.tripRearm p tag lanes) s =
      .next (replied p tag .stillAsserted [setByte (stillAsserted s (laneSetOf lanes))] (heard p s)) :=
  exec_tripRearm_of_owned ready hword hset howned (if_pos ((nonempty_eq_true _).mpr hasserted))

/-- `trip_rearm` with no line in the way: OK with the TRIPPED lanes of the set, each given rearm_pending. -/
theorem exec_tripRearm_of_clear {after : Vector LaneRec 16} (howned : OwnsLanes s p lanes)
    (hclear : ∀ k : Line, (stillAsserted s (laneSetOf lanes))[k] = false)
    (hafter : ∀ l : Lane, (rearmLanes (laneSetOf lanes) (heard p s)).lanes[l] = after[l]) :
    exec (.tripRearm p tag lanes) s =
      .next (replied p tag .ok (laneSetBytes (trippedOf s (laneSetOf lanes))) { heard p s with lanes := after }) := by
  rw [← rearmLanes_eq hafter]
  refine exec_tripRearm_of_owned ready hword hset howned (if_neg fun hany => ?_)
  obtain ⟨k, hk⟩ := (nonempty_eq_true _).mp hany
  exact Bool.false_ne_true ((hclear k).symm.trans hk)

end TripRearm

/-- Settles O47: the checks in R144's order; `stillAsserted_laneSetOf` and `trippedOf_laneSetOf` give the two sets of
the answer, `rearmLanes_of_tripped` and `rearmLanes_of_not_tripped` each lane after it. -/
theorem tripRearm : Obligations.TripRearm := by
  intro p tag lanes s ready hword run tripped forced owned
  have htripped : tripped = fun l => lanes.testBit l.val && s.lanes[l].status.isTripped := by
    funext l
    refine congrArg (lanes.testBit l.val && ·) ?_
    cases s.lanes[l].status <;> rfl
  have hforced : stillAsserted s (laneSetOf lanes) = forced := by
    simp only [forced, htripped, stillAsserted_laneSetOf]
  refine ⟨?empty, fun hset => ⟨?foreign, ?asserted, ?clear⟩⟩
  case empty =>
    rintro rfl
    exact exec_tripRearm_of_empty ready
  case foreign => exact exec_tripRearm_of_foreign ready hword hset
  case asserted =>
    rw [← hforced]
    exact exec_tripRearm_of_asserted ready hword hset
  case clear =>
    intro howned hclear
    rw [← hforced] at hclear
    rw [htripped, ← trippedOf_laneSetOf]
    refine exec_tripRearm_of_clear ready hword hset howned hclear fun l => ?_
    refine Eq.trans ?_ (Vector.getElem_ofFn l.isLt).symm
    cases hstatus : s.lanes[l].status with
    | tripped q cause rearm => exact rearmLanes_of_tripped (s := heard p s) hstatus
    | free | leased | orphaned =>
      exact rearmLanes_of_not_tripped (s := heard p s) (congrArg LaneStatus.isTripped hstatus)

end Sys2Proof.Machine
end

section
/-! SUPPORT. PROPOSAL_COMMIT: the commit of an ACCEPTED proposal at the agreement unit's response to a boundary
(spec/10 R160), by the change of source it makes (spec/01 R9, spec/02 R33). -/

namespace Sys2Proof.Machine

/-! ### The row -/

section Commit

variable {s : State} {pr : Proposal}

/-- The agreement unit's response, when due with an ACCEPTED proposal, is that proposal's commit. -/
theorem takeProposalCommit_of_accepted (hdue : s.due.agreement = true) (hproposal : s.agreement.proposal = some pr)
    (haccepted : pr.state = .accepted) : takeProposalCommit s = commitProposal pr s := by
  simp only [takeProposalCommit, hdue, hproposal, haccepted]

/-- Out of reset, with no SYNC_LOCKED waiting, PROPOSAL_COMMIT is the agreement unit's response for an ACCEPTED
proposal. -/
theorem exec_proposalCommit (h : Awake s) : exec .proposalCommit s = .next (takeProposalCommit s) :=
  congrArg Host.Outcome.next (happens_of_awake takeProposalCommit s h)

/-- PROPOSAL_COMMIT of an ACCEPTED proposal whose response is due: what it writes. Every OPEN port is told the seq of
the frame that begins, which no commit changes. -/
theorem exec_proposalCommit_of_accepted (awake : Awake s) (hdue : s.due.agreement = true)
    (hproposal : s.agreement.proposal = some pr) (haccepted : pr.state = .accepted) :
    exec .proposalCommit s = .next (emitAll (.proposalEnded pr.id (.committed s.tb.seq))
      { s with
        tb := s.tb.commit pr.period pr.source
        sync := s.sync.commit s.tb.source pr.source
        agreement := { s.agreement with proposal := none }
        due := { s.due with agreement := false } }) := by
  rw [exec_proposalCommit awake, takeProposalCommit_of_accepted hdue hproposal haccepted]
  rfl

end Commit

/-! ### The timebase by the change of source -/

section Source

variable {tb : Timebase}

/-- From FREE to FREE only the period changes: a FREE-running timebase stays FREE. -/
theorem Timebase.commit_free_free (hsource : tb.source = .free) (hstate : tb.state = .free) (period : Nat) :
    tb.commit period .free = { tb with period := period } := by
  simp only [Timebase.commit, hsource]
  rw [← hstate]

/-- From FREE to FOLLOW the timebase takes the window too and starts ACQUIRING. -/
theorem Timebase.commit_free_follow (hsource : tb.source = .free) (period window : Nat) :
    tb.commit period (.follow window) =
      { tb with period := period, source := .follow, window := window, state := .acquiring } := by
  simp only [Timebase.commit, hsource]

/-- From FOLLOW to FREE the timebase runs FREE and keeps its window. -/
theorem Timebase.commit_follow_free (hsource : tb.source = .follow) (period : Nat) :
    tb.commit period .free = { tb with period := period, source := .free, state := .free } := by
  simp only [Timebase.commit, hsource]

/-- From FOLLOW to FOLLOW period and window change, and the state does not. -/
theorem Timebase.commit_follow_follow (hsource : tb.source = .follow) (period window : Nat) :
    tb.commit period (.follow window) = { tb with period := period, window := window } := by
  simp only [Timebase.commit, hsource]

end Source

/-- Settles O18: `exec_proposalCommit_of_accepted` names all that a commit writes; the lemma of each of the four changes
of source gives its timebase, and its monitor is `SyncMonitor.commit`'s row for it. -/
theorem proposalCommits : Obligations.ProposalCommits := by
  intro s pr awake hdue hproposal haccepted cleared commits
  have hcommits : commits (s.tb.commit pr.period pr.source) (s.sync.commit s.tb.source pr.source) :=
    exec_proposalCommit_of_accepted awake hdue hproposal haccepted
  cases hbefore : s.tb.source with
  | free =>
    cases hafter : pr.source with
    | free =>
      intro hstate
      rw [hbefore, hafter, Timebase.commit_free_free hbefore hstate] at hcommits
      exact hcommits
    | follow w =>
      rw [hbefore, hafter, Timebase.commit_free_follow hbefore] at hcommits
      exact hcommits
  | follow =>
    cases hafter : pr.source with
    | free =>
      rw [hbefore, hafter, Timebase.commit_follow_free hbefore] at hcommits
      exact hcommits
    | follow w =>
      rw [hbefore, hafter, Timebase.commit_follow_follow hbefore] at hcommits
      exact hcommits

end Sys2Proof.Machine
end

section
/-! SUPPORT. Agreement: what `vote` and `withdraw` answer and change, by the proposal that stands and the requester's
part in it (spec/10 R156 to R158). -/

namespace Sys2Proof.Machine

/-! ### A choice, and an acceptance -/

/-- A number of 2 or more names no choice. -/
theorem choiceOf?_of_le {n : Nat} (h : 2 ≤ n) : choiceOf? n = none := by
  obtain ⟨m, rfl⟩ := Nat.exists_eq_add_of_le' h
  rfl

/-- 0 and 1 name the choices. -/
theorem choiceOf?_of_lt {n : Nat} (h : n < 2) : ∃ c, choiceOf? n = some c := by
  obtain rfl | rfl : n = 0 ∨ n = 1 := by omega
  · exact ⟨.accept, rfl⟩
  · exact ⟨.reject, rfl⟩

/-- Putting a member into a set writes its flag. -/
theorem insertId_eq_set {n : Nat} (v : IdSet n) (i : Fin n) : insertId v i = v.set i true := by
  refine table_ext fun j => ?_
  refine (insertId_getElem v i j.val j.isLt).trans ?_
  simp [Vector.getElem_set, Fin.ext_iff, eq_comm, Bool.or_comm]

/-- The code of a proposal's state: 1 says ACCEPTED. -/
theorem byteOf_proposalState (st : ProposalState) : byteOf st.code = if st = .accepted then 1#8 else 0#8 := by
  cases st <;> rfl

/-! ### The verdicts -/

/-- No proposal with an id stands. -/
def NoProposalWith (s : State) (id : Nat) : Prop := ∀ pr ∈ s.agreement.proposal, pr.id ≠ id

section Verdict

variable {p : Port} {id : Nat} {c : Choice} {s : State} {pr : Proposal}

/-- A vote on an id that no proposal has meets NO_PROPOSAL. -/
theorem voteChecked_of_none (h : NoProposalWith s id) : voteChecked p id c s = refuse .noProposal s := by
  unfold voteChecked
  cases hproposal : s.agreement.proposal with
  | none => rfl
  | some pr => exact if_pos (h pr hproposal)

/-- A vote of a port outside the electorate meets NOT_ELIGIBLE. -/
theorem voteChecked_of_outside (hproposal : s.agreement.proposal = some pr) (houtside : pr.electorate[p] = false) :
    voteChecked p pr.id c s = refuse .notEligible s := by
  simp [voteChecked, hproposal, houtside]

/-- A second vote of a port that has accepted meets ALREADY_VOTED. -/
theorem voteChecked_of_voted (hproposal : s.agreement.proposal = some pr) (hinside : pr.electorate[p] = true)
    (hvoted : pr.accepted[p] = true) : voteChecked p pr.id c s = refuse .alreadyVoted s := by
  simp [voteChecked, hproposal, hinside, hvoted]

/-- The first vote of a port of the electorate is cast. -/
theorem voteChecked_of_eligible (hproposal : s.agreement.proposal = some pr) (hinside : pr.electorate[p] = true)
    (hnew : pr.accepted[p] = false) : voteChecked p pr.id c s = castVote p pr c s := by
  simp [voteChecked, hproposal, hinside, hnew]

/-- `withdraw` once the session check has passed (R158). -/
def withdrawChecked (p : Port) (id : Nat) : Command := fun s =>
  match s.agreement.proposal with
  | none => refuse .noProposal s
  | some pr =>
    if pr.id ≠ id then refuse .noProposal s
    else if pr.proposer ≠ p then refuse .notOwner s
    else okay (endProposal pr.id .withdrawn s)

/-- A withdrawal of an id that no proposal has meets NO_PROPOSAL. -/
theorem withdrawChecked_of_none (h : NoProposalWith s id) : withdrawChecked p id s = refuse .noProposal s := by
  unfold withdrawChecked
  cases hproposal : s.agreement.proposal with
  | none => rfl
  | some pr => exact if_pos (h pr hproposal)

/-- A withdrawal of another port's proposal meets NOT_OWNER. -/
theorem withdrawChecked_of_other (hproposal : s.agreement.proposal = some pr) (hother : pr.proposer ≠ p) :
    withdrawChecked p pr.id s = refuse .notOwner s := by
  simp [withdrawChecked, hproposal, hother]

/-- A withdrawal of the requester's own proposal ends it. -/
theorem withdrawChecked_of_proposer (hproposal : s.agreement.proposal = some pr) (hproposer : pr.proposer = p) :
    withdrawChecked p pr.id s = okay (endProposal pr.id .withdrawn s) := by
  simp [withdrawChecked, hproposal, hproposer]

end Verdict

/-! ### The commands -/

/-- The row of `vote`. -/
theorem exec_vote (p : Port) (tag id choice : Nat) (s : State) :
    exec (.vote p tag id choice) s = .next (whileRunning (takeRequest p tag fun _ => cmdVote p id choice) s) := rfl

/-- The row of `withdraw`. -/
theorem exec_withdraw (p : Port) (tag id : Nat) (s : State) :
    exec (.withdraw p tag id) s =
      .next (whileRunning (takeRequest p tag fun _ => inSession p (withdrawChecked p id)) s) := rfl

section Vote

variable {p : Port} {tag id choice : Nat} {s t : State} {pr : Proposal}

/-- `vote` with a number that names no choice is refused with RANGE. -/
theorem exec_vote_of_range (ready : Ready s p) (hchoice : 2 ≤ choice) :
    exec (.vote p tag id choice) s = refused p tag .range s := by
  refine exec_eq_replied_of_verdict (exec_vote p tag id choice s) ready ?_
  simp only [choiceOf?_of_le hchoice, refuse]

/-- `vote` with a choice, from the verdict of the further checks: its status and payload are the reply. -/
theorem exec_vote_of_verdict {c : Choice} {st : Status} {bytes : List Byte} (ready : Ready s p)
    (hchoice : choiceOf? choice = some c)
    (hvote : voteChecked p id c (heard p s) = (t, { status := st, payload := bytes })) :
    exec (.vote p tag id choice) s = .next (replied p tag st bytes t) := by
  refine exec_eq_replied_of_verdict (exec_vote p tag id choice s) ready ?_
  simp only [hchoice, hvote]

/-- `vote` with a choice that the further checks refuse, whichever choice it is. -/
theorem exec_vote_of_refusal {st : Status} (ready : Ready s p) (hchoice : choice < 2)
    (hvote : ∀ c, voteChecked p id c (heard p s) = refuse st (heard p s)) :
    exec (.vote p tag id choice) s = refused p tag st s := by
  obtain ⟨c, hc⟩ := choiceOf?_of_lt hchoice
  exact exec_vote_of_verdict ready hc (hvote c)

/-- An acceptance: the requester joins accepted, and the proposal is ACCEPTED when that completes the electorate
(R157). -/
theorem castVote_accept (p : Port) (pr : Proposal) (s : State) :
    castVote p pr .accept s =
      okWith [if (if pr.accepted.set p true = pr.electorate then ProposalState.accepted else pr.state) = .accepted
          then 1#8 else 0#8]
        { s with agreement := { s.agreement with
            proposal := some { pr with
              accepted := pr.accepted.set p true
              state := if pr.accepted.set p true = pr.electorate then .accepted else pr.state } } } := by
  rw [castVote, byteOf_proposalState, Proposal.accept, insertId_eq_set]

end Vote

/-- Settles O49: one rule per check in R156's and R158's order; `castVote_accept` gives the acceptance, and both ends
are `endProposal`. -/
theorem voteAndWithdraw : Obligations.VoteAndWithdraw := by
  intro p tag id choice s ready vote withdraw ends
  refine ⟨exec_vote_of_range ready, fun hnone => ⟨fun hchoice => ?voteAbsent, ?withdrawAbsent⟩, ?_⟩
  case voteAbsent => exact exec_vote_of_refusal ready hchoice fun _ => voteChecked_of_none (s := heard p s) hnone
  case withdrawAbsent =>
    exact exec_eq_replied_of_verdict (exec_withdraw p tag id s) ready (withdrawChecked_of_none (s := heard p s) hnone)
  rintro pr hproposal rfl
  have hheard : (heard p s).agreement.proposal = some pr := hproposal
  refine ⟨fun hchoice => ⟨fun houtside => ?_, fun hinside hvoted => ?_, fun hinside hnew => ⟨?reject, ?accept⟩⟩,
    fun hother => ?other, fun hproposer => ?own⟩
  · exact exec_vote_of_refusal ready hchoice fun _ => voteChecked_of_outside hheard houtside
  · exact exec_vote_of_refusal ready hchoice fun _ => voteChecked_of_voted hheard hinside hvoted
  case reject =>
    rintro rfl
    exact exec_vote_of_verdict ready rfl (voteChecked_of_eligible hheard hinside hnew)
  case accept =>
    rintro rfl
    exact exec_vote_of_verdict ready rfl
      ((voteChecked_of_eligible hheard hinside hnew).trans (castVote_accept p pr (heard p s)))
  case other =>
    exact exec_eq_replied_of_verdict (exec_withdraw p tag pr.id s) ready (withdrawChecked_of_other hheard hother)
  case own =>
    exact exec_eq_replied_of_verdict (exec_withdraw p tag pr.id s) ready
      (withdrawChecked_of_proposer hheard hproposer)

end Sys2Proof.Machine
end

section
/-! SUPPORT. Tables and sets read at an index of their own type, and what is said of a whole table when one entry, or the
empty set, is put in. -/

namespace Sys2Proof.Machine

section Tables

variable {α β : Type} {n : Nat}

theorem get_tabulate (f : Fin n → α) (i : Fin n) : (tabulate f)[i] = f i := tabulate_getElem f i.val i.isLt

theorem get_setOf (f : Fin n → Bool) (i : Fin n) : (setOf f)[i] = f i := setOf_getElem f i.val i.isLt

theorem get_ofFn (f : Fin n → α) (i : Fin n) : (Vector.ofFn f)[i] = f i := Vector.getElem_ofFn i.isLt

theorem get_set (v : Vector α n) (i j : Fin n) (a : α) : (v.set i a)[j] = if i = j then a else v[j] := by
  simp [Vector.getElem_set, Fin.ext_iff]

theorem get_set_self (v : Vector α n) (i : Fin n) (a : α) : (v.set i a)[i] = a := by simp

theorem get_set_of_ne (v : Vector α n) {i j : Fin n} (a : α) (h : j ≠ i) : (v.set i a)[j] = v[j] := by
  rw [get_set, if_neg (Ne.symm h)]

theorem get_update (v : Vector α n) (i j : Fin n) (f : α → α) :
    (update v i f)[j] = if i = j then f v[i] else v[j] := get_set v i j (f v[i])

theorem get_map (f : α → β) (v : Vector α n) (i : Fin n) : (v.map f)[i] = f v[i] := by simp

theorem get_replicate (a : α) (i : Fin n) : (Vector.replicate n a)[i] = a := by simp

theorem get_eraseId (s : IdSet n) (i j : Fin n) : (eraseId s i)[j] = (s[j] && !decide (j = i)) :=
  eraseId_getElem s i j.val j.isLt

theorem get_insertId (s : IdSet n) (i j : Fin n) : (insertId s i)[j] = (s[j] || decide (j = i)) :=
  insertId_getElem s i j.val j.isLt

theorem get_single (i j : Fin n) : (single i)[j] = decide (j = i) := single_getElem i j.val j.isLt

theorem get_noneId (i : Fin n) : (IdSet.none n)[i] = false := noneId_getElem i.val i.isLt

/-- What holds of the new entry and of the old entries elsewhere holds of the table with the entry put in. -/
theorem forall_get_set {v : Vector α n} {i : Fin n} {a : α} {P : Fin n → α → Prop} (hnew : P i a)
    (hold : ∀ j, j ≠ i → P j v[j]) (j : Fin n) : P j (v.set i a)[j] := by
  by_cases h : j = i
  · subst h; rwa [get_set_self]
  · rw [get_set_of_ne _ _ h]; exact hold j h

/-- Taking a member out of a set writes its flag. -/
theorem eraseId_eq_set (v : IdSet n) (i : Fin n) : eraseId v i = v.set i false := by
  refine table_ext fun j => ?_
  rw [get_eraseId, get_set]
  by_cases h : j = i
  · simp [h]
  · simp [h, Ne.symm h]

/-- The set of one member, as a written flag. -/
theorem single_eq_set_replicate (i : Fin n) : single i = (Vector.replicate n false).set i true := by
  refine table_ext fun j => ?_
  rw [get_single, get_set, get_replicate]
  by_cases h : j = i
  · simp [h]
  · simp [h, Ne.symm h]

theorem eraseId_none (i : Fin n) : eraseId (IdSet.none n) i = IdSet.none n := by
  refine table_ext fun j => ?_
  rw [get_eraseId, get_noneId, Bool.false_and]

/-- A set has no member when no flag is set. -/
theorem nonempty_eq_false {v : IdSet n} (h : ∀ i : Fin n, v[i] = false) : nonempty v = false := by
  rw [← Bool.not_eq_true, nonempty_eq_true]
  rintro ⟨i, hi⟩
  exact Bool.false_ne_true ((h i).symm.trans hi)

end Tables

end Sys2Proof.Machine
end

section
/-! SUPPORT. Handing over records: the steps that give OPEN ports records and do nothing else (spec/08 R120, R123 to
R126). -/

namespace Sys2Proof.Machine

/-- A port's queues and tallies are within their bounds (R120, R124). -/
def Delivery.Fits (d : Delivery) : Prop :=
  d.results.length ≤ 16 ∧ d.events.length ≤ 8 ∧ d.lostResults ≤ 255 ∧ d.lostEvents ≤ 255

theorem Delivery.Fits.reset : Delivery.reset.Fits := by simp [Delivery.Fits, Delivery.reset]

theorem Delivery.Fits.pushEvent {d : Delivery} (h : d.Fits) (e : Event) (seq : Nat) : (d.pushEvent e seq).Fits := by
  obtain ⟨hresults, hevents, hlostResults, hlostEvents⟩ := h
  rw [Delivery.pushEvent_eq]
  split
  case isTrue hroom => exact ⟨hresults, by simpa using hroom, hlostResults, Nat.zero_le _⟩
  case isFalse => refine ⟨hresults, hevents, hlostResults, ?_⟩; dsimp only; split <;> omega

theorem Delivery.Fits.pushResult {d : Delivery} (h : d.Fits) (r : ResultRec) : (d.pushResult r).Fits := by
  obtain ⟨hresults, hevents, hlostResults, hlostEvents⟩ := h
  rw [Delivery.pushResult_eq]
  split
  case isTrue hroom => exact ⟨by simpa using hroom, hevents, Nat.zero_le _, hlostEvents⟩
  case isFalse => refine ⟨hresults, hevents, ?_, hlostEvents⟩; dsimp only; split <;> omega

theorem Delivery.Fits.pushTrips {d : Delivery} (h : d.Fits) (p : Port) (seq : Nat) (xs : List (Port × Line × Lane)) :
    (d.pushTrips p seq xs).Fits := by
  unfold Delivery.pushTrips
  generalize xs.filter (fun x => decide (x.1 = p)) = ys
  induction ys generalizing d with
  | nil => exact h
  | cons y ys ih => exact ih (h.pushEvent _ seq)

/-- From one state to another OPEN ports are handed records, within the bounds of their queues, and nothing else
changes. -/
def Tells (s t : State) : Prop :=
  ∃ d : Vector Delivery 4, t = { s with delivery := d } ∧
    ∀ p : Port, (s.sessions[p].state ≠ .opened → d[p] = s.delivery[p]) ∧ (s.delivery[p].Fits → d[p].Fits)

theorem Tells.rfl {s : State} : Tells s s := ⟨s.delivery, Eq.refl s, fun _ => ⟨fun _ => Eq.refl _, id⟩⟩

theorem Tells.trans {s t u : State} (h : Tells s t) (h' : Tells t u) : Tells s u := by
  obtain ⟨d, rfl, hd⟩ := h
  obtain ⟨d', rfl, hd'⟩ := h'
  refine ⟨d', Eq.refl _, fun p => ⟨fun hp => ?_, fun hp => ?_⟩⟩
  · obtain ⟨hclosed, -⟩ := hd p
    obtain ⟨hclosed', -⟩ := hd' p
    exact (hclosed' hp).trans (hclosed hp)
  · obtain ⟨-, hfits⟩ := hd p
    obtain ⟨-, hfits'⟩ := hd' p
    exact hfits' (hfits hp)

theorem emit_tells (f : Port → Option Event) (s : State) : Tells s (emit f s) := by
  refine ⟨(emit f s).delivery, rfl, fun p => ?_⟩
  have hp : (emit f s).delivery[p] = _ := emit_delivery f s p.val p.isLt
  rw [hp]
  cases f p with
  | none => exact ⟨fun _ => rfl, id⟩
  | some e =>
    dsimp only
    split
    case isTrue hopen => exact ⟨fun hp => absurd (isOpen_iff.mp hopen) hp, fun h => h.pushEvent e _⟩
    case isFalse => exact ⟨fun _ => rfl, id⟩

theorem emitAll_tells (e : Event) (s : State) : Tells s (emitAll e s) := emit_tells _ s

theorem placeResult_tells (p : Port) (r : ResultRec) (s : State) : Tells s (placeResult p r s) := by
  by_cases hopen : s.sessions[p].state = .opened
  · rw [placeResult_of_open r hopen]
    refine ⟨_, rfl, fun q => ?_⟩
    rw [get_update]
    split
    case isTrue hq => subst hq; exact ⟨absurd hopen, fun h => h.pushResult r⟩
    case isFalse => exact ⟨fun _ => rfl, id⟩
  · rw [placeResult_of_not_open r hopen]
    exact .rfl

theorem deliverFor_tells (r : ConvRequest) (st : ResultStatus) (s : State) : Tells s (deliverFor r st s) := by
  unfold deliverFor
  split
  · exact .rfl
  · exact placeResult_tells _ _ s

theorem deliverAll_tells (rs : List ConvRequest) (st : ResultStatus) (s : State) : Tells s (deliverAll rs st s) := by
  induction rs generalizing s with
  | nil => exact .rfl
  | cons r rs ih => exact (deliverFor_tells r st s).trans (ih _)

theorem placeAll_tells (rs : List (Port × ResultRec)) (s : State) : Tells s (placeAll rs s) := by
  induction rs generalizing s with
  | nil => exact .rfl
  | cons m rs ih => exact (placeResult_tells m.1 m.2 s).trans (ih _)

theorem clearFreed_tells (k : EndKind) (before : State) (p : Port) (s : State) : Tells s (clearFreed k before p s) := by
  unfold clearFreed
  generalize List.finRange 4 = lines
  induction lines generalizing s with
  | nil => exact .rfl
  | cons t lines ih =>
    rw [List.foldl_cons]
    split
    · exact (emit_tells _ s).trans (ih _)
    · exact ih s

end Sys2Proof.Machine
end

section
/-! SUPPORT. What every reachable state satisfies, field by field: `Sound` of Safety taken apart into one record of facts,
`Steady`, and the clause on a waiting SYNC_LOCKED, `LockedWaits`. -/

namespace Sys2Proof.Machine

/-! ### The records that stand in the state -/

/-- The timebase is in range and its state agrees with its source (R3, R4, R5, R9). -/
structure Timebase.InRange (tb : Timebase) : Prop where
  period : 64 ≤ tb.period ∧ tb.period ≤ 65535
  window : 1 ≤ tb.window ∧ tb.window ≤ 255
  follows : tb.source = .follow → tb.window ≤ tb.period / 8
  counter : tb.counter < tb.period
  seq : tb.seq < 65536
  state : tb.state.underSource tb.source = true

/-- The sync monitor's numbers are in range (R20, R22, R23). -/
structure SyncMonitor.InRange (m : SyncMonitor) : Prop where
  slip : m.slip ≤ 4
  interval : m.interval ≤ 65535
  intervalCounter : ∀ n ∈ m.intervalCounter, n ≤ 65535
  phaseError : -32767 ≤ m.phaseError ∧ m.phaseError ≤ 32767

/-- A proposal names a period and a source that a commit may bring (R150, R152). -/
def Proposal.Allowed (pr : Proposal) : Prop :=
  (64 ≤ pr.period ∧ pr.period ≤ 65535) ∧ pr.source.inRange pr.period = true

/-- A proposal's id, countdown, sets and state agree; one with no frame left is about to be judged (R150, R151). -/
structure Proposal.Stands (judged : Bool) (pr : Proposal) : Prop where
  id : 1 ≤ pr.id ∧ pr.id ≤ 255
  votes : 1 ≤ pr.voteWindow ∧ pr.voteWindow ≤ 255 ∧ pr.framesLeft ≤ pr.voteWindow
  proposer : pr.accepted[pr.proposer] = true
  voters : ∀ q : Port, pr.accepted[q] = true → pr.electorate[q] = true
  accepted : pr.state = .accepted ↔ pr.accepted = pr.electorate
  framesLeft : pr.state = .opened → pr.framesLeft = 0 → judged = true

/-- The session of a port is OPEN (R36). -/
abbrev Opened (s : State) (p : Port) : Prop := s.sessions[p].state = .opened

/-- Whoever holds anything in a block has an OPEN session (R41). -/
structure HoldersOpen (s : State) : Prop where
  lanes : ∀ (l : Lane) (p : Port), s.lanes[l].status.owner? = some p → Opened s p
  lines : ∀ (t : Line) (p : Port), s.trips[t].ownership.owner? = some p → Opened s p
  informed : ∀ (t : Line) (p : Port), s.trips[t].informed[p] = true → Opened s p
  slots : ∀ (i : Slot), ∀ r ∈ s.slots[i], Opened s r.owner
  entries : ∀ e ∈ s.commits, Opened s e.port
  reports : ∀ p : Port, s.groupReport[p] = true → Opened s p
  flight : ∀ c ∈ s.conv.inFlight, ∀ p : Port, c.request.owner = some p → Opened s p
  queue : ∀ r ∈ s.conv.queue, ∀ p : Port, r.owner = some p → Opened s p
  delivery : ∀ p : Port, ¬ Opened s p → s.delivery[p] = .reset
  proposer : ∀ pr ∈ s.agreement.proposal, Opened s pr.proposer
  electorate : ∀ pr ∈ s.agreement.proposal, ∀ p : Port, pr.electorate[p] = true → Opened s p
  accepted : ∀ pr ∈ s.agreement.proposal, ∀ p : Port, pr.accepted[p] = true → Opened s p
  cut : ∀ m ∈ s.due.cut, Opened s m.1

/-- The state stands at a boundary already made: a silence count may have reached its limit (R44). -/
def atBoundary (s : State) : Bool := decide (s.tb.counter = 0) && !s.due.wrap

/-- What every reachable state satisfies, but for the clause on a waiting SYNC_LOCKED. -/
structure Steady (s : State) : Prop where
  delivery : ∀ p : Port, s.delivery[p].Fits
  queue : s.conv.queue.length ≤ 8
  list : s.commits.length ≤ 24
  share : ∀ p : Port, (s.commits.filter fun e => decide (e.port = p)).length ≤ 12
  rx : ∀ p : Port, s.links[p].rx.length ≤ 28
  stamp : s.tickStamp < 4294967296
  tb : s.tb.InRange
  sync : s.sync.InRange
  grace : s.sync.grace = true → s.tb.state = .locked ∧ s.tb.counter ≤ s.tb.window
  allowed : ∀ pr ∈ s.agreement.proposal, pr.Allowed
  response : s.due.agreement = true → s.agreement.proposal.isSome = true ∧ s.tb.counter = 0
  sessions : ∀ p : Port, s.sessions[p].sound (atBoundary s) = true
  holders : HoldersOpen s
  lanes : ∀ l : Lane, laneSound s l
  lines : ∀ t : Line, lineSound s.trips[t]
  samples : ∀ t : Line, s.due.trip[t] = true → s.trips[t].ownership ≠ .free
  targets : ∀ e ∈ s.commits, targetSound s e
  named : ∀ i : Slot, (s.commits.filter (Entry.names i)).length = entriesDue s.slots[i]
  held : ∀ e ∈ s.commits, e.held = true → s.sessions[e.port].groupOpen = true ∧ e.released = false
  fits : FitsPeriod s s.tb.period
  fitsProposed : ∀ pr ∈ s.agreement.proposal, FitsPeriod s pr.period
  nextId : 1 ≤ s.agreement.nextId ∧ s.agreement.nextId ≤ 255
  running : ∀ pr ∈ s.agreement.proposal, running s = true
  stands : ∀ pr ∈ s.agreement.proposal, pr.Stands s.due.agreement
  converter : ConverterSound s

/-- A SYNC_LOCKED waits only in LOCKED and while a lapse is due (log 29). -/
def LockedWaits (s : State) : Prop :=
  s.due.locked ≠ none → s.tb.state = .locked ∧ ∃ p : Port, s.sessions[p].lapses = true

/-! ### Sound taken apart -/

theorem frameSound_iff (s : State) :
    FrameSound s ↔ s.tickStamp < 4294967296 ∧ s.tb.InRange ∧ s.sync.InRange ∧
      (s.sync.grace = true → s.tb.state = .locked ∧ s.tb.counter ≤ s.tb.window) ∧
      (∀ pr ∈ s.agreement.proposal, pr.Allowed) ∧
      (s.due.agreement = true → s.agreement.proposal.isSome = true ∧ s.tb.counter = 0) := by
  constructor
  · rintro ⟨hstamp, hperiod, hwindow, hfollows, hcounter, hseq, hstate, hslip, hinterval, hic, hphase, hgrace, hallowed,
      hresponse⟩
    exact ⟨hstamp, ⟨hperiod, hwindow, hfollows, hcounter, hseq, hstate⟩, ⟨hslip, hinterval, hic, hphase⟩, hgrace,
      hallowed, hresponse⟩
  · rintro ⟨hstamp, ⟨hperiod, hwindow, hfollows, hcounter, hseq, hstate⟩, ⟨hslip, hinterval, hic, hphase⟩, hgrace,
      hallowed, hresponse⟩
    exact ⟨hstamp, hperiod, hwindow, hfollows, hcounter, hseq, hstate, hslip, hinterval, hic, hphase, hgrace, hallowed,
      hresponse⟩

theorem agreementSound_iff (s : State) :
    AgreementSound s ↔ (1 ≤ s.agreement.nextId ∧ s.agreement.nextId ≤ 255) ∧
      (∀ pr ∈ s.agreement.proposal, running s = true) ∧
      ∀ pr ∈ s.agreement.proposal, pr.Stands s.due.agreement := by
  constructor
  · rintro ⟨hnext, hproposal⟩
    refine ⟨hnext, fun pr hpr => ?_, fun pr hpr => ?_⟩
    · obtain ⟨hrunning, -⟩ := hproposal pr hpr
      exact hrunning
    · obtain ⟨-, hid, hvotes, hproposer, hvoters, haccepted, hleft⟩ := hproposal pr hpr
      exact ⟨hid, hvotes, hproposer, hvoters, haccepted, hleft⟩
  · rintro ⟨hnext, hrunning, hstands⟩
    refine ⟨hnext, fun pr hpr => ?_⟩
    obtain ⟨hid, hvotes, hproposer, hvoters, haccepted, hleft⟩ := hstands pr hpr
    exact ⟨hrunning pr hpr, hid, hvotes, hproposer, hvoters, haccepted, hleft⟩

/-- That ports without a session hold nothing is that whoever holds anything has one. -/
theorem holdersOpen_iff (s : State) :
    HoldersOpen s ↔ ∀ p : Port, s.sessions[p].state ≠ .opened → HoldsNothing s p := by
  constructor
  · rintro ⟨hlanes, hlines, hinformed, hslots, hentries, hreports, hflight, hqueue, hdelivery, hproposer, helectorate,
      haccepted, hcut⟩ p hp
    refine ⟨fun l hl => hp (hlanes l p hl), fun t => ⟨fun ht => hp (hlines t p ht), ?_⟩, fun i r hr ho => ?_,
      fun e he ho => ?_, ?_, fun c hc ho => hp (hflight c hc p ho), fun r hr ho => hp (hqueue r hr p ho), hdelivery p hp,
      fun pr hpr => ⟨fun ho => ?_, ?_, ?_⟩, fun m hm ho => ?_⟩
    · exact Bool.eq_false_iff.mpr fun ht => hp (hinformed t p ht)
    · exact hp (ho ▸ hslots i r hr)
    · exact hp (ho ▸ hentries e he)
    · exact Bool.eq_false_iff.mpr fun hr => hp (hreports p hr)
    · exact hp (ho ▸ hproposer pr hpr)
    · exact Bool.eq_false_iff.mpr fun h => hp (helectorate pr hpr p h)
    · exact Bool.eq_false_iff.mpr fun h => hp (haccepted pr hpr p h)
    · exact hp (ho ▸ hcut m hm)
  · intro h
    have hopen {p : Port} (hholds : ¬ HoldsNothing s p) : Opened s p := not_not.mp (mt (h p) hholds)
    refine ⟨fun l p hl => hopen ?_, fun t p ht => hopen ?_, fun t p ht => hopen ?_, fun i r hr => hopen ?_,
      fun e he => hopen ?_, fun p hr => hopen ?_, fun c hc p hp => hopen ?_, fun r hr p hp => hopen ?_, fun p hp => ?_,
      fun pr hpr => hopen ?_, fun pr hpr p hp => hopen ?_, fun pr hpr p hp => hopen ?_, fun m hm => hopen ?_⟩
    case refine_9 => obtain ⟨-, -, -, -, -, -, -, hdelivery, -⟩ := h p hp; exact hdelivery
    all_goals
      rintro ⟨hlanes, hlines, hslots, hentries, hreports, hflight, hqueue, -, hproposal, hcut⟩
    · exact hlanes l hl
    · exact (hlines t).1 ht
    · exact Bool.false_ne_true ((hlines t).2.symm.trans ht)
    · exact hslots i r hr rfl
    · exact hentries e he rfl
    · exact Bool.false_ne_true (hreports.symm.trans hr)
    · exact hflight c hc hp
    · exact hqueue r hr hp
    · exact (hproposal pr hpr).1 rfl
    · exact Bool.false_ne_true ((hproposal pr hpr).2.1.symm.trans hp)
    · exact Bool.false_ne_true ((hproposal pr hpr).2.2.symm.trans hp)
    · exact hcut m hm rfl

/-- The parts of `Sound` are the facts of `Steady` and the clause on a waiting SYNC_LOCKED. -/
theorem sound_iff_steady (s : State) : Sound s ↔ Steady s ∧ LockedWaits s := by
  constructor
  · rintro ⟨⟨hdelivery, hqueue, hlist, hshare, hrx⟩, hframe, ⟨hsessions, hholders, hlocked⟩, ⟨hlanes, hlines, hsamples⟩,
      ⟨htargets, hnamed, hheld⟩, ⟨hfits, hproposed⟩, hagreement, hconverter⟩
    obtain ⟨hstamp, htb, hsync, hgrace, hallowed, hresponse⟩ := (frameSound_iff s).mp hframe
    obtain ⟨hnext, hrunning, hstands⟩ := (agreementSound_iff s).mp hagreement
    exact ⟨⟨hdelivery, hqueue, hlist, hshare, hrx, hstamp, htb, hsync, hgrace, hallowed, hresponse, hsessions,
      (holdersOpen_iff s).mpr hholders, hlanes, hlines, hsamples, htargets, hnamed, hheld, hfits, hproposed, hnext,
      hrunning, hstands, hconverter⟩, hlocked⟩
  · rintro ⟨h, hlocked⟩
    exact ⟨⟨h.delivery, h.queue, h.list, h.share, h.rx⟩,
      (frameSound_iff s).mpr ⟨h.stamp, h.tb, h.sync, h.grace, h.allowed, h.response⟩,
      ⟨h.sessions, (holdersOpen_iff s).mp h.holders, hlocked⟩, ⟨h.lanes, h.lines, h.samples⟩,
      ⟨h.targets, h.named, h.held⟩, ⟨h.fits, h.fitsProposed⟩,
      (agreementSound_iff s).mpr ⟨h.nextId, h.running, h.stands⟩, h.converter⟩

/-! ### What a steady state gives at once -/

/-- The soundness of a session that is not OPEN does not turn on the moment. -/
theorem Session.sound_of_not_open {r : Session} (hclosed : r.state ≠ .opened) (b b' : Bool) :
    r.sound b = r.sound b' := by
  obtain ⟨st, limit, count, threshold, group⟩ := r
  cases st with
  | opened => exact absurd rfl hclosed
  | closed | lapsed => cases limit <;> cases count <;> cases threshold <;> rfl

/-- The fields of a sound OPEN session (R36, R44). -/
theorem Session.sound_opened_iff {r : Session} (hopen : r.state = .opened) (b : Bool) :
    r.sound b = true ↔ ∃ limit count threshold, r.silenceLimit = some limit ∧ r.silenceCount = some count ∧
      r.resultThreshold = some threshold ∧ (1 ≤ limit ∧ limit ≤ 65535) ∧ (1 ≤ threshold ∧ threshold ≤ 16) ∧
      (count < limit ∨ (count = limit ∧ b = true)) := by
  obtain ⟨st, limit, count, threshold, group⟩ := r
  cases hopen
  cases limit <;> cases count <;> cases threshold <;> simp [Session.sound, and_assoc]

/-- An OPEN session lapses when its count has reached its limit. -/
theorem Session.lapses_iff {r : Session} {limit count : Nat} (hopen : r.state = .opened)
    (hlimit : r.silenceLimit = some limit) (hcount : r.silenceCount = some count) :
    r.lapses = true ↔ limit ≤ count := by
  simp [Session.lapses, hopen, hlimit, hcount]

/-- The fields of a sound OPEN session that does not lapse: its count is below its limit. -/
theorem Session.fields_of_below {r : Session} {b : Bool} (h : r.sound b = true) (hbelow : r.lapses = false)
    (hopen : r.state = .opened) : ∃ limit count threshold, r.silenceLimit = some limit ∧ r.silenceCount = some count ∧
      r.resultThreshold = some threshold ∧ (1 ≤ limit ∧ limit ≤ 65535) ∧ (1 ≤ threshold ∧ threshold ≤ 16) ∧
      count < limit := by
  obtain ⟨limit, count, threshold, hlimit, hcount, hthreshold, hl, ht, -⟩ := (Session.sound_opened_iff hopen b).mp h
  refine ⟨limit, count, threshold, hlimit, hcount, hthreshold, hl, ht, Nat.lt_of_not_le fun hle => ?_⟩
  exact Bool.false_ne_true (hbelow.symm.trans ((Session.lapses_iff hopen hlimit hcount).mpr hle))

/-- A session below its limit is sound at every moment. -/
theorem Session.sound_of_below {r : Session} {b : Bool} (h : r.sound b = true) (hbelow : r.lapses = false) (b' : Bool) :
    r.sound b' = true := by
  by_cases hopen : r.state = .opened
  · obtain ⟨limit, count, threshold, hlimit, hcount, hthreshold, hl, ht, hlt⟩ := Session.fields_of_below h hbelow hopen
    exact (Session.sound_opened_iff hopen b').mpr ⟨limit, count, threshold, hlimit, hcount, hthreshold, hl, ht, .inl hlt⟩
  · rwa [Session.sound_of_not_open hopen b' b]

/-- A session lapses only when it is OPEN. -/
theorem Session.opened_of_lapses {r : Session} (h : r.lapses = true) : r.state = .opened := by
  unfold Session.lapses at h
  split at h
  case h_1 hstate _ _ => exact hstate
  case h_2 => cases h

/-- A sound session lapses exactly at its limit, and only at a boundary. -/
theorem Session.lapses_of_sound {r : Session} {b : Bool} (h : r.sound b = true) (hlapses : r.lapses = true) :
    b = true ∧ r.state = .opened ∧ ∃ n, r.silenceLimit = some n ∧ r.silenceCount = some n := by
  have hopen := Session.opened_of_lapses hlapses
  obtain ⟨limit, count, threshold, hlimit, hcount, -, -, -, hat⟩ := (Session.sound_opened_iff hopen b).mp h
  have hreached := (Session.lapses_iff hopen hlimit hcount).mp hlapses
  obtain hbelow | ⟨rfl, hb⟩ := hat
  · omega
  · exact ⟨hb, hopen, count, hlimit, hcount⟩

/-- Away from a boundary no lapse is due. -/
theorem Steady.no_lapse {s : State} (h : Steady s) (hb : atBoundary s = false) (p : Port) :
    s.sessions[p].lapses = false := by
  rw [Bool.eq_false_iff]
  intro hlapses
  obtain ⟨hat, -⟩ := Session.lapses_of_sound (h.sessions p) hlapses
  exact Bool.false_ne_true (hb.symm.trans hat)

/-- Records handed to OPEN ports keep a state steady. -/
theorem Tells.steady {s t : State} (ht : Tells s t) (h : Steady s) : Steady t := by
  obtain ⟨d, rfl, hd⟩ := ht
  exact { h with
    delivery := fun p => (hd p).2 (h.delivery p)
    holders := { h.holders with delivery := fun p hp => ((hd p).1 hp).trans (h.holders.delivery p hp) } }

end Sys2Proof.Machine
end

section
/-! SUPPORT. A frame boundary and a SYNC_LOCKED keep a state steady (spec/01 R5 to R7, spec/02 R24 and R30, spec/03 R44,
spec/10 R161). -/

namespace Sys2Proof.Machine

/-! ### Holders under other sessions -/

/-- Holders stay with OPEN sessions when no session that was OPEN is so no more. -/
theorem HoldersOpen.with_sessions {s : State} (h : HoldersOpen s) {sessions : Vector Session 4}
    (hopen : ∀ p : Port, s.sessions[p].state = .opened → sessions[p].state = .opened) :
    HoldersOpen { s with sessions := sessions } where
  lanes l p hl := hopen p (h.lanes l p hl)
  lines t p ht := hopen p (h.lines t p ht)
  informed t p ht := hopen p (h.informed t p ht)
  slots i r hr := hopen r.owner (h.slots i r hr)
  entries e he := hopen e.port (h.entries e he)
  reports p hp := hopen p (h.reports p hp)
  flight c hc p hp := hopen p (h.flight c hc p hp)
  queue r hr p hp := hopen p (h.queue r hr p hp)
  delivery p hp := h.delivery p (mt (hopen p) hp)
  proposer pr hpr := hopen pr.proposer (h.proposer pr hpr)
  electorate pr hpr p hp := hopen p (h.electorate pr hpr p hp)
  accepted pr hpr p hp := hopen p (h.accepted pr hpr p hp)
  cut m hm := hopen m.1 (h.cut m hm)

/-! ### The counts of a boundary -/

theorem Session.countFrame_state (r : Session) : r.countFrame.state = r.state := by
  unfold Session.countFrame; split <;> rfl

theorem Session.countFrame_groupOpen (r : Session) : r.countFrame.groupOpen = r.groupOpen := by
  unfold Session.countFrame; split <;> rfl

theorem Session.countFrame_eq_counted (r : Session) : r.countFrame = r.counted := by
  unfold Session.countFrame Session.counted
  cases r.state <;> rfl

/-- A session below its limit is sound at the boundary that counts a frame. -/
theorem Session.sound_countFrame {r : Session} {b : Bool} (h : r.sound b = true) (hbelow : r.lapses = false) :
    r.countFrame.sound true = true := by
  rw [Session.countFrame_eq_counted, Session.counted]
  split
  case isFalse hclosed => rwa [Session.sound_of_not_open hclosed true b]
  case isTrue hopen =>
    obtain ⟨limit, count, threshold, hlimit, hcount, hthreshold, hl, ht, hlt⟩ := Session.fields_of_below h hbelow hopen
    refine (Session.sound_opened_iff (r := { r with silenceCount := r.silenceCount.map (· + 1) }) hopen true).mpr
      ⟨limit, count + 1, threshold, hlimit, by simp [hcount], hthreshold, hl, ht, ?_⟩
    rw [and_iff_left (Eq.refl true)]
    omega

theorem Proposal.countFrame_eq (pr : Proposal) :
    pr.countFrame = { pr with framesLeft := if pr.state = .opened then pr.framesLeft - 1 else pr.framesLeft } := by
  obtain ⟨id, proposer, period, source, votes, left, electorate, accepted, st⟩ := pr
  cases st <;> rfl

theorem Proposal.Stands.countFrame {b : Bool} {pr : Proposal} (h : pr.Stands b) : pr.countFrame.Stands true := by
  obtain ⟨hlow, hhigh, hleft⟩ := h.votes
  rw [Proposal.countFrame_eq]
  refine ⟨h.id, ⟨hlow, hhigh, ?_⟩, h.proposer, h.voters, h.accepted, fun _ _ => rfl⟩
  dsimp only
  split <;> omega

/-! ### The frame that begins -/

theorem BoundaryKind.nextSeq_lt (k : BoundaryKind) (seq : Nat) : k.nextSeq seq < 65536 := by
  cases k with
  | start => exact Nat.zero_lt_succ _
  | wrap => exact Nat.mod_lt _ (by decide)
  | edge c => exact Nat.mod_lt _ (by decide)

/-- A boundary leaves the grace open in LOCKED only. -/
theorem Steady.boundary_grace {s : State} (h : Steady s) {k : BoundaryKind} (hgrace : k.grace s = true) :
    s.tb.state = .locked := by
  cases k with
  | start => cases hgrace
  | edge c => cases hgrace
  | wrap =>
    obtain hlocked | hopen := Bool.or_eq_true_iff.mp hgrace
    · exact of_decide_eq_true hlocked
    · obtain ⟨hlocked, -⟩ := h.grace hopen
      exact hlocked

/-- A short-frame record is made for the owner of its slot. -/
theorem shortFrames_owner {c : Nat} {s : State} {m : Port × ResultRec} (hm : m ∈ shortFrames c s) :
    ∃ i : Slot, ∃ r ∈ s.slots[i], r.owner = m.1 := by
  obtain ⟨i, -, hi⟩ := List.mem_filterMap.mp hm
  unfold shortFrameOf at hi
  cases hslot : s.slots[i] with
  | none => rw [hslot] at hi; cases hi
  | some r =>
    simp only [hslot] at hi
    split at hi
    · cases hi; exact ⟨i, r, hslot, rfl⟩
    · cases hi

theorem BoundaryKind.cutRecords_owner {k : BoundaryKind} {s : State} {m : Port × ResultRec}
    (hm : m ∈ k.cutRecords s) : ∃ i : Slot, ∃ r ∈ s.slots[i], r.owner = m.1 := by
  cases k with
  | start => cases hm
  | wrap => cases hm
  | edge c => exact shortFrames_owner hm

/-- A boundary keeps a state steady in which no lapse is due: every silence count may still rise. -/
theorem makeBoundary_steady (k : BoundaryKind) {s : State} (h : Steady s)
    (hlapse : ∀ p : Port, s.sessions[p].lapses = false) : Steady (makeBoundary k s) := by
  have hstate (p : Port) : (s.sessions.map Session.countFrame)[p].state = s.sessions[p].state := by
    rw [get_map, Session.countFrame_state]
  have hholders := h.holders.with_sessions (sessions := s.sessions.map Session.countFrame)
    fun p hp => (hstate p).trans hp
  have hperiod : 0 < s.tb.period := by have := h.tb.period; omega
  exact { h with
    tb := { h.tb with counter := hperiod, seq := k.nextSeq_lt s.tb.seq }
    sync := { h.sync with }
    grace := fun hgrace => ⟨h.boundary_grace hgrace, Nat.zero_le _⟩
    allowed := by
      intro pr' hpr'
      obtain ⟨pr, hpr, rfl⟩ := Option.mem_map.mp hpr'
      rw [Proposal.countFrame_eq]
      exact h.allowed pr hpr
    response := fun hdue => ⟨Option.isSome_map.trans hdue, rfl⟩
    sessions := by
      intro p
      rw [show (makeBoundary k s).sessions[p] = s.sessions[p].countFrame from get_map _ _ p]
      exact Session.sound_countFrame (h.sessions p) (hlapse p)
    holders := { hholders with
      proposer := by
        intro pr' hpr'
        obtain ⟨pr, hpr, rfl⟩ := Option.mem_map.mp hpr'
        rw [Proposal.countFrame_eq]
        exact hholders.proposer pr hpr
      electorate := by
        intro pr' hpr'
        obtain ⟨pr, hpr, rfl⟩ := Option.mem_map.mp hpr'
        rw [Proposal.countFrame_eq]
        exact hholders.electorate pr hpr
      accepted := by
        intro pr' hpr'
        obtain ⟨pr, hpr, rfl⟩ := Option.mem_map.mp hpr'
        rw [Proposal.countFrame_eq]
        exact hholders.accepted pr hpr
      cut := by
        intro m hm
        obtain hold | hnew := List.mem_append.mp hm
        · exact hholders.cut m hold
        · obtain ⟨i, r, hr, howner⟩ := BoundaryKind.cutRecords_owner hnew
          exact howner ▸ hholders.slots i r hr }
    held := by
      intro e he hheld
      rw [show (makeBoundary k s).sessions[e.port] = s.sessions[e.port].countFrame from get_map _ _ e.port,
        Session.countFrame_groupOpen]
      exact h.held e he hheld
    fitsProposed := by
      intro pr' hpr'
      obtain ⟨pr, hpr, rfl⟩ := Option.mem_map.mp hpr'
      rw [Proposal.countFrame_eq]
      exact h.fitsProposed pr hpr
    running := by
      intro pr' hpr'
      obtain ⟨pr, hpr, -⟩ := Option.mem_map.mp hpr'
      exact h.running pr hpr
    stands := by
      intro pr' hpr'
      obtain ⟨pr, hpr, rfl⟩ := Option.mem_map.mp hpr'
      have hdue : (makeBoundary k s).due.agreement = true := Option.isSome_of_mem hpr
      rw [hdue]
      exact (h.stands pr hpr).countFrame }

theorem takeWrap_steady {s : State} (h : Steady s) : Steady (takeWrap s) := by
  unfold takeWrap
  split
  case isTrue hdue =>
    have hwrap : s.due.wrap = true := Bool.and_elim_left hdue
    exact makeBoundary_steady .wrap h (h.no_lapse (by simp [atBoundary, hwrap]))
  case isFalse => exact h

theorem takeLocked_steady {s : State} (h : Steady s) : Steady (takeLocked s) := by
  unfold takeLocked
  split
  · exact h
  · exact (emitAll_tells _ _).steady { h with holders := { h.holders with } }

theorem releaseLocked_steady {s : State} (h : Steady s) : Steady (releaseLocked s) := by
  unfold releaseLocked
  split
  · exact h
  · exact takeLocked_steady h

end Sys2Proof.Machine
end

section
/-! SUPPORT. The sync monitor's happenings keep a state steady: accepted edges, stray edges and the expiry of the grace
(spec/02 R21 to R30). -/

namespace Sys2Proof.Machine

/-! ### The measurement of an accepted edge -/

theorem SyncMonitor.InRange.measure {m : SyncMonitor} (h : m.InRange) {phase : Int}
    (hphase : -32767 ≤ phase ∧ phase ≤ 32767) : (m.measure phase).InRange where
  slip := Nat.zero_le _
  interval := by
    cases hic : m.intervalCounter with
    | none => simpa [SyncMonitor.measure, hic] using h.interval
    | some n => simpa [SyncMonitor.measure, hic] using h.intervalCounter n hic
  intervalCounter := by
    rintro n ⟨⟩
    exact Nat.zero_le _
  phaseError := hphase

theorem acquirePhase_range {c period : Nat} (hc : c < period) (hperiod : period ≤ 65535) :
    -32767 ≤ acquirePhase c period ∧ acquirePhase c period ≤ 32767 := by
  unfold acquirePhase
  split <;> omega

/-- A timebase that judges edges follows its source. -/
theorem Timebase.InRange.source_of_monitored {tb : Timebase} (h : tb.InRange) (hstate : tb.state.monitored = true) :
    tb.source = .follow := by
  have hunder := h.state
  generalize tb.state = st at hstate hunder
  cases st with
  | stopped | free => cases hstate
  | acquiring | locked | coasting => exact of_decide_eq_true hunder

/-! ### Edges in ACQUIRING and COASTING -/

/-- A lock declared on a steady state that follows its source. -/
theorem lock_steady {s : State} (h : Steady s) (hsource : s.tb.source = .follow) {phase : Int}
    (hphase : -32767 ≤ phase ∧ phase ≤ 32767) (waits : Option Bool) :
    Steady { s with
      tb := { s.tb with state := .locked }
      sync := { s.sync.measure phase with lockedOnce := true }
      due := { s.due with locked := waits } } :=
  { h with
    tb := { h.tb with state := decide_eq_true hsource }
    sync := { h.sync.measure hphase with }
    grace := fun hgrace => Bool.noConfusion hgrace
    holders := { h.holders with }
    running := fun _ _ => rfl }

theorem acceptLock_steady {s : State} (h : Steady s) (hstate : s.tb.state.monitored = true) : Steady (acceptLock s) := by
  have hsource := h.tb.source_of_monitored hstate
  obtain ⟨-, hperiod⟩ := h.tb.period
  have hphase := acquirePhase_range h.tb.counter hperiod
  unfold acceptLock
  dsimp only
  split
  case isTrue hcut =>
    have hoff : atBoundary s = false := by simp [atBoundary, Nat.ne_of_gt hcut]
    exact releaseLocked_steady (lock_steady (makeBoundary_steady (.edge s.tb.counter) h (h.no_lapse hoff)) hsource hphase _)
  case isFalse => exact takeLocked_steady (lock_steady h hsource hphase _)

/-! ### Edges in LOCKED -/

/-- A measurement that leaves the timebase where it is. -/
theorem measure_steady {s : State} (h : Steady s) {phase : Int} (hphase : -32767 ≤ phase ∧ phase ≤ 32767) :
    Steady { s with sync := s.sync.measure phase } :=
  { h with
    sync := h.sync.measure hphase
    grace := fun hgrace => Bool.noConfusion hgrace
    holders := { h.holders with } }

/-- A realignment off the boundary: no lapse is due there, so the counter may return to 0. -/
theorem lateEdge_steady {s : State} (h : Steady s) (hlate : s.tb.counter ≠ 0) (hcounter : s.tb.counter ≤ 32767) :
    Steady (lateEdge s) := by
  have hoff : atBoundary s = false := by simp [atBoundary, hlate]
  have hperiod : 0 < s.tb.period := by have := h.tb.period; omega
  exact { h with
    tb := { h.tb with counter := hperiod }
    sync := h.sync.measure (by omega)
    grace := fun hgrace => Bool.noConfusion hgrace
    response := fun hdue => ⟨(h.response hdue).1, rfl⟩
    sessions := fun p => Session.sound_of_below (h.sessions p) (h.no_lapse hoff p) _
    holders := { h.holders with } }

theorem judgeLocked_steady {s : State} (h : Steady s) (hstate : s.tb.state = .locked) : Steady (judgeLocked s) := by
  have hsource := h.tb.source_of_monitored (by rw [hstate]; rfl)
  have hwindow := h.tb.follows hsource
  have hbound := h.tb.window
  have hperiod := h.tb.period
  unfold judgeLocked
  split
  case isTrue hinside =>
    split
    case isTrue =>
      split
      case isTrue => exact measure_steady h (by omega)
      case isFalse hlate => exact lateEdge_steady h hlate (by omega)
    case isFalse => exact h
  case isFalse houtside =>
    split
    case isTrue hearly =>
      have hoff : atBoundary s = false := by simp [atBoundary]; omega
      have hcounter := h.tb.counter
      exact measure_steady (makeBoundary_steady (.edge s.tb.counter) h (h.no_lapse hoff)) (by omega)
    case isFalse => exact h

theorem judgeEdge_steady {s : State} (h : Steady s) : Steady (judgeEdge s) := by
  unfold judgeEdge
  split
  case h_1 => exact h
  case h_2 => exact h
  case h_3 hstate => exact acceptLock_steady h (by rw [hstate]; rfl)
  case h_4 hstate => exact judgeLocked_steady h hstate
  case h_5 hstate => exact acceptLock_steady h (by rw [hstate]; rfl)

theorem takeEdge_steady {s : State} (h : Steady s) : Steady (takeEdge s) := by
  unfold takeEdge
  split
  · have hwrapped := takeWrap_steady h
    exact judgeEdge_steady { hwrapped with holders := { hwrapped.holders with } }
  · exact h

/-! ### The grace runs out -/

theorem graceRunsOut_steady {s : State} (h : Steady s) (hstate : s.tb.state = .locked) : Steady (graceRunsOut s) := by
  have hsource := h.tb.source_of_monitored (by rw [hstate]; rfl)
  have hclosed : Steady { s with
      sync := { s.sync with grace := false, slip := min Config.slipLimit (s.sync.slip + 1) }
      due := { s.due with edge := false } } :=
    { h with
      sync := { h.sync with slip := Nat.min_le_left _ _ }
      grace := fun hgrace => Bool.noConfusion hgrace
      holders := { h.holders with } }
  unfold graceRunsOut
  dsimp only
  split
  case isTrue =>
    exact (emitAll_tells _ _).steady { hclosed with
      tb := { hclosed.tb with state := decide_eq_true hsource }
      grace := fun hgrace => Bool.noConfusion hgrace
      running := fun _ _ => rfl
      holders := { hclosed.holders with } }
  case isFalse => exact hclosed

theorem takeGrace_steady {s : State} (h : Steady s) : Steady (takeGrace s) := by
  unfold takeGrace
  split
  case isTrue hdue =>
    have hlocked : s.tb.state = .locked := by
      simp only [graceExpires, Bool.and_eq_true, decide_eq_true_eq] at hdue
      exact hdue.1.1
    exact graceRunsOut_steady h hlocked
  case isFalse => exact h

end Sys2Proof.Machine
end

section
/-! SUPPORT. The converter keeps a state steady: the requests that wait will be started in time (spec/07 R105 to R111). -/

namespace Sys2Proof.Machine

/-! ### A queue whose requests are started in time -/

/-- The requests of a queue whose head is the j-th to be started after the conversion in flight: each will be started, if
those ahead of it are, at an age of at most 320 (R111). -/
def StartsInTime (now elapsed : Nat) : Nat → List ConvRequest → Prop
  | _, [] => True
  | j, r :: rest =>
      (r.triggerTime < 4294967296 ∧ ageOf now r.triggerTime + 40 * (j + 1) ≤ 320 + elapsed) ∧
        StartsInTime now elapsed (j + 1) rest

section Queue

variable {now elapsed j : Nat} {rs : List ConvRequest}

theorem startsInTime_iff : StartsInTime now elapsed j rs ↔ ∀ k : Fin rs.length,
    rs[k].triggerTime < 4294967296 ∧ ageOf now rs[k].triggerTime + 40 * (j + k.val + 1) ≤ 320 + elapsed := by
  induction rs generalizing j with
  | nil => exact ⟨fun _ k => k.elim0, fun _ => trivial⟩
  | cons r rest ih =>
    rw [StartsInTime, ih]
    constructor
    · rintro ⟨hhead, hrest⟩ k
      refine Fin.cases hhead (fun k => ?_) k
      have hk := hrest k
      rw [Nat.add_right_comm j 1 k.val] at hk
      exact hk
    · intro h
      refine ⟨h ⟨0, Nat.zero_lt_succ _⟩, fun k => ?_⟩
      have hk := h k.succ
      rw [Nat.add_right_comm j 1 k.val]
      exact hk

theorem queueSound_iff : queueSound now elapsed rs ↔ StartsInTime now elapsed 0 rs := by
  rw [startsInTime_iff, queueSound]
  simp only [Nat.zero_add]

/-- A queue that moves up is still in time. -/
theorem StartsInTime.earlier (h : StartsInTime now elapsed (j + 1) rs) : StartsInTime now elapsed j rs := by
  induction rs generalizing j with
  | nil => trivial
  | cons r rest ih =>
    obtain ⟨⟨htime, hage⟩, hrest⟩ := h
    exact ⟨⟨htime, by omega⟩, ih hrest⟩

/-- A conversion that begins takes the place of the 40 ticks that the one before it has lasted. -/
theorem StartsInTime.next (h : StartsInTime now elapsed (j + 1) rs) (helapsed : elapsed ≤ 40) :
    StartsInTime now 0 j rs := by
  induction rs generalizing j with
  | nil => trivial
  | cons r rest ih =>
    obtain ⟨⟨htime, hage⟩, hrest⟩ := h
    exact ⟨⟨htime, by omega⟩, ih hrest⟩

theorem StartsInTime.filter (h : StartsInTime now elapsed j rs) (f : ConvRequest → Bool) :
    StartsInTime now elapsed j (rs.filter f) := by
  induction rs generalizing j with
  | nil => trivial
  | cons r rest ih =>
    obtain ⟨hhead, hrest⟩ := h
    rw [List.filter_cons]
    split
    · exact ⟨hhead, ih hrest⟩
    · exact (ih hrest).earlier

theorem StartsInTime.dropWhile (h : StartsInTime now elapsed j rs) (f : ConvRequest → Bool) :
    StartsInTime now elapsed j (rs.dropWhile f) := by
  induction rs generalizing j with
  | nil => trivial
  | cons r rest ih =>
    obtain ⟨hhead, hrest⟩ := h
    rw [List.dropWhile_cons]
    split
    · exact (ih hrest).earlier
    · exact ⟨hhead, hrest⟩

/-- A request that joins the tail of a queue of fewer than 8, at age 0. -/
theorem StartsInTime.append {r : ConvRequest} (h : StartsInTime now elapsed j rs) (hroom : j + rs.length < 8)
    (hnow : r.triggerTime = now) (hstamp : now < 4294967296) : StartsInTime now elapsed j (rs ++ [r]) := by
  induction rs generalizing j with
  | nil =>
    refine ⟨⟨hnow ▸ hstamp, ?_⟩, trivial⟩
    rw [hnow, ageOf_self]
    simp only [List.length_nil] at hroom
    omega
  | cons q rest ih =>
    obtain ⟨hhead, hrest⟩ := h
    refine ⟨hhead, ih hrest ?_⟩
    simp only [List.length_cons] at hroom
    omega

/-- One tick ages every request and the conversion in flight alike. -/
theorem StartsInTime.tick (h : StartsInTime now elapsed j rs) (hstamp : now < 4294967296) :
    StartsInTime ((now + 1) % 4294967296) (elapsed + 1) j rs := by
  induction rs generalizing j with
  | nil => trivial
  | cons r rest ih =>
    obtain ⟨⟨htime, hage⟩, hrest⟩ := h
    refine ⟨⟨htime, ?_⟩, ih hrest⟩
    unfold ageOf Config.stampModulus at hage ⊢
    omega

end Queue

/-! ### The converter of a state -/

theorem captured_le (level : Int) : captured level ≤ 4095 := by
  unfold captured
  split_ifs <;> omega

theorem codeOf_le (level : Int) : codeOf level ≤ 4095 := codeOf_eq_captured level ▸ captured_le level

theorem converterSound_of_idle {s : State} (hidle : s.conv.inFlight = none) :
    ConverterSound s ↔ s.conv.queue = [] := by
  simp only [ConverterSound, hidle]

theorem converterSound_of_busy {s : State} {c : Conversion} (hbusy : s.conv.inFlight = some c) :
    ConverterSound s ↔ c.elapsed ≤ 40 ∧ c.wait ≤ 320 ∧ c.capture ≤ 4095 ∧
      StartsInTime s.tickStamp c.elapsed 0 s.conv.queue := by
  simp only [ConverterSound, hbusy, queueSound_iff]

theorem Steady.converterFits {s : State} (h : Steady s) : ConverterFits s :=
  ⟨h.queue, fun hidle => (converterSound_of_idle hidle).mp h.converter⟩

/-- A steady state with another converter, of which all the same is known. -/
theorem Steady.with_conv {s : State} (h : Steady s) {conv : Converter} (hqueue : conv.queue.length ≤ 8)
    (hflight : ∀ c ∈ conv.inFlight, ∀ p : Port, c.request.owner = some p → Opened s p)
    (howners : ∀ r ∈ conv.queue, ∀ p : Port, r.owner = some p → Opened s p)
    (hsound : ConverterSound { s with conv := conv }) : Steady { s with conv := conv } :=
  { h with
    queue := hqueue
    holders := { h.holders with flight := hflight, queue := howners }
    converter := hsound }

/-- A trigger of this tick for an OPEN port, handed to the converter. -/
theorem takeTrigger_steady {s : State} (h : Steady s) {r : ConvRequest}
    (howner : ∀ p : Port, r.owner = some p → Opened s p) (hnow : r.triggerTime = s.tickStamp) :
    Steady (takeTrigger r s) := by
  cases hflight : s.conv.inFlight with
  | none =>
    rw [takeTrigger_of_idle hflight ((converterSound_of_idle hflight).mp h.converter) hnow]
    refine h.with_conv (Nat.zero_le _) ?_ (fun _ hr => absurd hr (List.not_mem_nil)) ?_
    · rintro c ⟨⟩
      exact howner
    · exact (converterSound_of_busy rfl).mpr ⟨Nat.zero_le _, Nat.zero_le _, captured_le _, trivial⟩
  | some c =>
    obtain ⟨helapsed, hwait, hcapture, htime⟩ := (converterSound_of_busy hflight).mp h.converter
    obtain hroom | hfull := Nat.lt_or_eq_of_le h.queue
    · rw [takeTrigger_of_room hflight hroom]
      refine h.with_conv (by simpa using hroom) ?_ ?_ ?_
      · rintro _ ⟨⟩
        exact h.holders.flight c hflight
      · intro q hq
        obtain hold | hnew := List.mem_append.mp hq
        · exact h.holders.queue q hold
        · exact List.mem_singleton.mp hnew ▸ howner
      · exact (converterSound_of_busy rfl).mpr
          ⟨helapsed, hwait, hcapture, htime.append (by simpa using hroom) hnow h.stamp⟩
    · rw [takeTrigger_of_full hfull]
      exact (deliverFor_tells _ _ _).steady h

/-! ### The completion of a conversion -/

theorem placeResult_with_conv (p : Port) (m : ResultRec) (s : State) (c : Converter) :
    placeResult p m { s with conv := c } = { placeResult p m s with conv := c } := by
  have hopen : isOpen { s with conv := c } p = isOpen s p := rfl
  rw [placeResult, placeResult, hopen]
  split <;> rfl

/-- A converter put in place before or after a record is delivered is the same. -/
theorem deliverFor_with_conv (r : ConvRequest) (st : ResultStatus) (s : State) (c : Converter) :
    deliverFor r st { s with conv := c } = { deliverFor r st s with conv := c } := by
  unfold deliverFor
  split
  · rfl
  · exact placeResult_with_conv _ _ _ _

/-- What the converter takes from its queue does not turn on the rest of a state with the same time and pins. -/
theorem Converter.afterHead_congr {s t : State} (hstamp : t.tickStamp = s.tickStamp) (hpins : t.pins = s.pins)
    (queue : List ConvRequest) : Converter.afterHead t queue = Converter.afterHead s queue := by
  unfold Converter.afterHead startOf
  rw [hstamp, hpins]

/-- The completion: an OK record, then the MISSED STALE records of the head, and the converter as taking the head leaves
it (R107, R110). -/
theorem finishConversion_eq (c : Conversion) (s : State) :
    finishConversion c s =
      deliverAll (s.conv.queue.takeWhile (ConvRequest.stale s.tickStamp)) (.missed .stale)
        { deliverFor c.request (.ok c.capture c.wait) s with conv := Converter.afterHead s s.conv.queue } := by
  obtain ⟨d, hd⟩ := deliverFor_frame c.request (.ok c.capture c.wait) s
  rw [finishConversion, deliverFor_with_conv, takeHead, hd,
    Converter.afterHead_congr (s := s) (t := { s with delivery := d, conv := _ }) rfl rfl]

theorem takeCompletion_of_idle {s : State} (h : s.conv.inFlight = none) : takeCompletion s = s := by
  rw [takeCompletion, h]

theorem takeCompletion_of_early {s : State} {c : Conversion} (h : s.conv.inFlight = some c) (hearly : c.elapsed < 40) :
    takeCompletion s = s := by
  rw [takeCompletion, h]
  exact if_neg (Nat.not_le.mpr hearly)

theorem takeCompletion_of_complete {s : State} {c : Conversion} (h : s.conv.inFlight = some c)
    (hcomplete : 40 ≤ c.elapsed) : takeCompletion s = finishConversion c s := by
  rw [takeCompletion, h]
  exact if_pos hcomplete

/-- The converter after taking the head of a queue that was in time behind 40 ticks of conversion. -/
theorem afterHead_sound {s : State} {queue : List ConvRequest} (htime : StartsInTime s.tickStamp 40 0 queue) :
    ConverterSound { s with conv := Converter.afterHead s queue } := by
  have hrest := htime.dropWhile (ConvRequest.stale s.tickStamp)
  unfold Converter.afterHead
  generalize queue.dropWhile (ConvRequest.stale s.tickStamp) = rest at hrest
  cases rest with
  | nil => exact (converterSound_of_idle rfl).mpr rfl
  | cons r rest =>
    obtain ⟨⟨-, hage⟩, hrest⟩ := hrest
    refine (converterSound_of_busy rfl).mpr ⟨Nat.zero_le _, ?_, codeOf_le _, hrest.next (Nat.le_refl 40)⟩
    change ageOf s.tickStamp r.triggerTime ≤ 320
    omega

theorem mem_of_afterHead {s : State} {queue : List ConvRequest} :
    (∀ c ∈ (Converter.afterHead s queue).inFlight, c.request ∈ queue) ∧
      (∀ r ∈ (Converter.afterHead s queue).queue, r ∈ queue) ∧
        (Converter.afterHead s queue).queue.length ≤ queue.length := by
  have hmem : ∀ r ∈ queue.dropWhile (ConvRequest.stale s.tickStamp), r ∈ queue :=
    fun r hr => (List.dropWhile_sublist _).subset hr
  have hlength := (List.dropWhile_sublist (l := queue) (ConvRequest.stale s.tickStamp)).length_le
  unfold Converter.afterHead
  generalize queue.dropWhile (ConvRequest.stale s.tickStamp) = rest at hmem hlength
  cases rest with
  | nil => exact ⟨fun _ hc => (Option.not_mem_none _ hc).elim, fun _ hr => absurd hr (List.not_mem_nil), Nat.zero_le _⟩
  | cons r rest =>
    refine ⟨?_, fun q hq => hmem q (List.mem_cons_of_mem _ hq), Nat.le_of_succ_le hlength⟩
    rintro c ⟨⟩
    exact hmem r List.mem_cons_self

theorem takeCompletion_steady {s : State} (h : Steady s) : Steady (takeCompletion s) := by
  cases hflight : s.conv.inFlight with
  | none => rwa [takeCompletion_of_idle hflight]
  | some c =>
    obtain hearly | hcomplete := Nat.lt_or_ge c.elapsed 40
    · rwa [takeCompletion_of_early hflight hearly]
    obtain ⟨helapsed, -, -, htime⟩ := (converterSound_of_busy hflight).mp h.converter
    rw [Nat.le_antisymm helapsed hcomplete] at htime
    obtain ⟨d, hd⟩ := deliverFor_frame c.request (.ok c.capture c.wait) s
    have htold : Steady (deliverFor c.request (.ok c.capture c.wait) s) := (deliverFor_tells _ _ _).steady h
    rw [takeCompletion_of_complete hflight hcomplete, finishConversion_eq]
    refine (deliverAll_tells _ _ _).steady ?_
    obtain ⟨hflight', hqueue', hlength⟩ := mem_of_afterHead (s := s) (queue := s.conv.queue)
    rw [hd] at htold ⊢
    exact htold.with_conv (hlength.trans h.queue) (fun c hc => h.holders.queue _ (hflight' c hc))
      (fun r hr => h.holders.queue r (hqueue' r hr)) (afterHead_sound htime)

end Sys2Proof.Machine
end

section
/-! SUPPORT. Slots and the entries that name them: changes of the slot table and the commit list that keep a state steady
(spec/05 R69, R70; spec/06 R84, R93). -/

namespace Sys2Proof.Machine

/-! ### What fits a period -/

/-- Lanes, slots and entries that stood before, or whose settings did, fit what those fitted. -/
theorem FitsPeriod.of_subset {s t : State} {period : Nat} (h : FitsPeriod s period)
    (hlanes : ∀ l : Lane, t.lanes[l].status ≠ .free →
      s.lanes[l].status ≠ .free ∧ t.lanes[l].settings = s.lanes[l].settings)
    (hslots : ∀ i : Slot, ∀ r ∈ t.slots[i], ∃ r' ∈ s.slots[i], r'.offset = r.offset)
    (hentries : ∀ e ∈ t.commits, ∃ e' ∈ s.commits, e'.action = e.action) : FitsPeriod t period := by
  obtain ⟨hlanesFit, hslotsFit, hentriesFit⟩ := h
  refine ⟨fun l hl => ?_, fun i r hr => ?_, fun e he => ?_⟩
  · obtain ⟨hl', hsettings⟩ := hlanes l hl
    exact hsettings ▸ hlanesFit l hl'
  · obtain ⟨r', hr', hoffset⟩ := hslots i r hr
    exact hoffset ▸ hslotsFit i r' hr'
  · obtain ⟨e', he', haction⟩ := hentries e he
    exact haction ▸ hentriesFit e' he'

/-! ### Entries that name a slot -/

theorem Entry.adds_iff {i : Slot} {e : Entry} : e.adds i = true ↔ e.action = .sampleAdd i := decide_eq_true_iff

theorem Entry.removes_iff {i : Slot} {e : Entry} : e.removes i = true ↔ e.action = .sampleRemove i := decide_eq_true_iff

theorem Entry.names_iff {i : Slot} {e : Entry} :
    e.names i = true ↔ e.action = .sampleAdd i ∨ e.action = .sampleRemove i := by
  rw [Entry.names, Bool.or_eq_true, Entry.adds_iff, Entry.removes_iff]

theorem Entry.names_unique {i j : Slot} {e : Entry} (hi : e.names i = true) (hj : e.names j = true) : i = j := by
  obtain hi | hi := Entry.names_iff.mp hi <;> obtain hj | hj := Entry.names_iff.mp hj <;> rw [hi] at hj <;> cases hj <;> rfl

theorem targetSound_laneSet {s : State} {e : Entry} {l : Lane} {w : LaneSettings} (h : e.action = .laneSet l w) :
    targetSound s e ↔ s.lanes[l].status.owner? = some e.port := by
  simp only [targetSound, h]

theorem targetSound_add {s : State} {e : Entry} {i : Slot} (h : e.action = .sampleAdd i) :
    targetSound s e ↔ ∃ r ∈ s.slots[i], r.state = .staged ∧ r.owner = e.port := by
  simp only [targetSound, h]

theorem targetSound_remove {s : State} {e : Entry} {i : Slot} (h : e.action = .sampleRemove i) :
    targetSound s e ↔ ∃ r ∈ s.slots[i], r.state = .retiring ∧ r.owner = e.port := by
  simp only [targetSound, h]

/-- An entry's target is as sound in a state that agrees on the owner of its lane or on the record of its slot. -/
theorem targetSound_congr {s t : State} {e : Entry} (h : targetSound s e)
    (hlanes : ∀ l w, e.action = .laneSet l w → t.lanes[l].status.owner? = s.lanes[l].status.owner?)
    (hslots : ∀ i, e.names i = true → t.slots[i] = s.slots[i]) : targetSound t e := by
  cases haction : e.action with
  | laneSet l w =>
    rw [targetSound_laneSet haction] at h ⊢
    exact (hlanes l w haction).trans h
  | sampleAdd i =>
    rw [targetSound_add haction] at h ⊢
    rwa [hslots i (Entry.names_iff.mpr (.inl haction))]
  | sampleRemove i =>
    rw [targetSound_remove haction] at h ⊢
    rwa [hslots i (Entry.names_iff.mpr (.inr haction))]

/-- The slot that an entry names is its port's own, STAGED or RETIRING. -/
theorem Steady.slot_of_names {s : State} (h : Steady s) {e : Entry} (he : e ∈ s.commits) {i : Slot}
    (hnames : e.names i = true) : ∃ r ∈ s.slots[i], r.owner = e.port ∧ r.state ≠ .live := by
  have htarget := h.targets e he
  obtain hadd | hremove := Entry.names_iff.mp hnames
  · obtain ⟨r, hr, hstate, howner⟩ := (targetSound_add hadd).mp htarget
    exact ⟨r, hr, howner, by rw [hstate]; exact nofun⟩
  · obtain ⟨r, hr, hstate, howner⟩ := (targetSound_remove hremove).mp htarget
    exact ⟨r, hr, howner, by rw [hstate]; exact nofun⟩

/-- A STAGED slot is named by a SAMPLE_ADD, a slot in any other state by none. -/
theorem Steady.adds_iff_staged {s : State} (h : Steady s) {e : Entry} (he : e ∈ s.commits) {i : Slot} {r : SlotRec}
    (hslot : s.slots[i] = some r) (hnames : e.names i = true) : e.adds i = true ↔ r.state = .staged := by
  have htarget := h.targets e he
  obtain hadd | hremove := Entry.names_iff.mp hnames
  · obtain ⟨r', hr', hstate, -⟩ := (targetSound_add hadd).mp htarget
    cases Option.mem_unique hslot hr'
    exact iff_of_true (Entry.adds_iff.mpr hadd) hstate
  · obtain ⟨r', hr', hstate, -⟩ := (targetSound_remove hremove).mp htarget
    cases Option.mem_unique hslot hr'
    refine iff_of_false (fun hadd => ?_) (by rw [hstate]; exact nofun)
    exact nomatch (Entry.adds_iff.mp hadd).symm.trans hremove

theorem Steady.removes_iff_not_staged {s : State} (h : Steady s) {e : Entry} (he : e ∈ s.commits) {i : Slot} {r : SlotRec}
    (hslot : s.slots[i] = some r) (hnames : e.names i = true) : e.removes i = true ↔ r.state ≠ .staged := by
  rw [Ne, ← h.adds_iff_staged he hslot hnames]
  obtain hadd | hremove := Entry.names_iff.mp hnames
  · exact iff_of_false (fun hr => nomatch (Entry.removes_iff.mp hr).symm.trans hadd) (not_not_intro (Entry.adds_iff.mpr hadd))
  · exact iff_of_true (Entry.removes_iff.mpr hremove) fun ha => nomatch (Entry.adds_iff.mp ha).symm.trans hremove

/-! ### Changes of the slot table -/

/-- The fields of a slot's record that the other blocks read. -/
def SlotRec.key (r : SlotRec) : SlotState × Port × Nat := (r.state, r.owner, r.offset)

theorem entriesDue_of_key {a b : Option SlotRec} (h : a.map SlotRec.key = b.map SlotRec.key) :
    entriesDue a = entriesDue b := by
  cases a with
  | none => cases b with
    | none => rfl
    | some r => cases h
  | some q => cases b with
    | none => cases h
    | some r =>
      have hstate : q.state = r.state := congrArg (·.1) (Option.some.inj h)
      simp only [entriesDue, hstate]

/-- New records with the states, owners and offsets of the old ones keep a state steady. -/
theorem Steady.with_slots {s : State} (h : Steady s) {slots : Vector (Option SlotRec) 32}
    (hkey : ∀ i : Slot, slots[i].map SlotRec.key = s.slots[i].map SlotRec.key) : Steady { s with slots := slots } := by
  have hback (i : Slot) (r : SlotRec) (hr : r ∈ slots[i]) : ∃ r' ∈ s.slots[i], r'.key = r.key := by
    have := hkey i ▸ Option.mem_map_of_mem SlotRec.key hr
    exact Option.mem_map.mp this
  have hforth (i : Slot) (r : SlotRec) (hr : r ∈ s.slots[i]) : ∃ r' ∈ slots[i], r'.key = r.key := by
    have := (hkey i).symm ▸ Option.mem_map_of_mem SlotRec.key hr
    exact Option.mem_map.mp this
  have hstill (period : Nat) (hfits : FitsPeriod s period) : FitsPeriod { s with slots := slots } period := by
    refine hfits.of_subset (fun l hl => ⟨hl, rfl⟩) (fun i r hr => ?_) fun e he => ⟨e, he, rfl⟩
    obtain ⟨r', hr', heq⟩ := hback i r hr
    exact ⟨r', hr', congrArg (·.2.2) heq⟩
  exact { h with
    holders := { h.holders with
      slots := by
        intro i r hr
        obtain ⟨r', hr', heq⟩ := hback i r hr
        have howner : r'.owner = r.owner := congrArg (·.2.1) heq
        exact howner ▸ h.holders.slots i r' hr' }
    targets := by
      intro e he
      have htarget := h.targets e he
      cases haction : e.action with
      | laneSet l w => rwa [targetSound_laneSet haction] at htarget ⊢
      | sampleAdd i =>
        obtain ⟨r, hr, hstate, howner⟩ := (targetSound_add haction).mp htarget
        obtain ⟨r', hr', heq⟩ := hforth i r hr
        exact (targetSound_add haction).mpr
          ⟨r', hr', (congrArg (·.1) heq).trans hstate, (congrArg (·.2.1) heq).trans howner⟩
      | sampleRemove i =>
        obtain ⟨r, hr, hstate, howner⟩ := (targetSound_remove haction).mp htarget
        obtain ⟨r', hr', heq⟩ := hforth i r hr
        exact (targetSound_remove haction).mpr
          ⟨r', hr', (congrArg (·.1) heq).trans hstate, (congrArg (·.2.1) heq).trans howner⟩
    named := by
      intro i
      exact (h.named i).trans (entriesDue_of_key (hkey i)).symm
    fits := hstill _ h.fits
    fitsProposed := fun pr hpr => hstill _ (h.fitsProposed pr hpr) }

/-! ### Changes of the commit list -/

/-- Entries of a steady state, with their bounds. -/
theorem Steady.list_of_sublist {s : State} (h : Steady s) {es : List Entry} (hes : es.Sublist s.commits) :
    es.length ≤ 24 ∧ ∀ p : Port, (es.filter fun e => decide (e.port = p)).length ≤ 12 :=
  ⟨hes.length_le.trans h.list, fun p => (hes.filter _).length_le.trans (h.share p)⟩

/-- A slot becomes EMPTY together with the entries that name it. -/
theorem Steady.clear_slot {s : State} (h : Steady s) (i : Slot) {keep : Entry → Bool}
    (hkeep : ∀ e ∈ s.commits, keep e = !e.names i) :
    Steady { s with slots := s.slots.set i none, commits := s.commits.filter keep } := by
  obtain ⟨hlist, hshare⟩ := h.list_of_sublist (List.filter_sublist (p := keep))
  have hslots (j : Slot) (r : SlotRec) (hr : r ∈ (s.slots.set i none)[j]) : j ≠ i ∧ r ∈ s.slots[j] := by
    rw [get_set] at hr
    split at hr
    · exact (Option.not_mem_none _ hr).elim
    · exact ⟨Ne.symm ‹_›, hr⟩
  have hstill (period : Nat) (hfits : FitsPeriod s period) :
      FitsPeriod { s with slots := s.slots.set i none, commits := s.commits.filter keep } period :=
    hfits.of_subset (fun l hl => ⟨hl, rfl⟩) (fun j r hr => ⟨r, (hslots j r hr).2, rfl⟩)
      fun e he => ⟨e, List.mem_of_mem_filter he, rfl⟩
  exact { h with
    list := hlist
    share := hshare
    holders := { h.holders with
      slots := fun j r hr => h.holders.slots j r (hslots j r hr).2
      entries := fun e he => h.holders.entries e (List.mem_of_mem_filter he) }
    targets := by
      intro e he
      obtain ⟨hin, hkept⟩ := List.mem_filter.mp he
      refine targetSound_congr (h.targets e hin) (fun _ _ _ => rfl) fun j hj => get_set_of_ne _ _ ?_
      rintro rfl
      rw [hkeep e hin, hj] at hkept
      cases hkept
    named := by
      intro j
      change ((s.commits.filter keep).filter (Entry.names j)).length = entriesDue (s.slots.set i none)[j]
      rw [List.filter_filter, get_set]
      split
      case isTrue hj =>
        subst hj
        rw [List.filter_eq_nil_iff.mpr fun e he => by simp [hkeep e he]]
        rfl
      case isFalse hj =>
        rw [← h.named j]
        refine congrArg List.length (List.filter_congr fun e he => ?_)
        rw [hkeep e he]
        cases hnames : e.names j with
        | false => rfl
        | true =>
          have : e.names i = false := Bool.eq_false_iff.mpr fun hi => hj (Entry.names_unique hi hnames)
          rw [this]
          rfl
    held := fun e he => h.held e (List.mem_of_mem_filter he)
    fits := hstill _ h.fits
    fitsProposed := fun pr hpr => hstill _ (h.fitsProposed pr hpr) }

end Sys2Proof.Machine
end

section
/-! SUPPORT. The sample schedule's judgement keeps a state steady (spec/06 R91 to R96). -/

namespace Sys2Proof.Machine

/-- A slot that fires is LIVE or RETIRING. -/
theorem not_staged_of_slotDue {s : State} {i : Slot} {r : SlotRec} (hslot : s.slots[i] = some r)
    (hdue : slotDue s i = true) : r.state ≠ .staged := by
  intro hstaged
  simp [slotDue, hslot, SlotRec.dueIn, SlotState.fires, hstaged] at hdue

/-- A slot not STAGED becomes EMPTY at its firing if it is ONCE, with the entry that retires it. -/
theorem emptyOnce_steady {s : State} (h : Steady s) {i : Slot} {r r' : SlotRec} (hslot : s.slots[i] = some r')
    (hstate : r'.state ≠ .staged) : Steady (emptyOnce i r s) := by
  unfold emptyOnce
  split
  case h_1 =>
    refine h.clear_slot i fun e he => congrArg (!·) ?_
    by_cases hnames : e.names i = true
    · rw [hnames]
      exact (h.removes_iff_not_staged he hslot hnames).mpr hstate
    · rw [Bool.eq_false_iff.mpr hnames]
      exact Bool.eq_false_iff.mpr fun hremoves => hnames (by simp [Entry.names, hremoves])
  case h_2 => exact h
  case h_3 => exact h

theorem fireSlot_steady {s : State} (h : Steady s) {i : Slot} (hdue : slotDue s i = true) : Steady (fireSlot i s) := by
  unfold fireSlot
  cases hslot : s.slots[i] with
  | none => exact h
  | some r =>
    have hfired : Steady { s with slots := s.slots.set i (some { r with lastFired := some s.tb.seq }) } := by
      refine h.with_slots fun j => ?_
      rw [get_set]
      split
      case isTrue hj => subst hj; rw [hslot]; rfl
      case isFalse => rfl
    have htriggered := takeTrigger_steady hfired (r := triggerOf s i r)
      (by rintro p ⟨⟩; exact h.holders.slots i r hslot) rfl
    obtain ⟨c, d, hframe⟩ := takeTrigger_frame (triggerOf s i r)
      { s with slots := s.slots.set i (some { r with lastFired := some s.tb.seq }) }
    refine emptyOnce_steady htriggered (r' := { r with lastFired := some s.tb.seq }) ?_
      (not_staged_of_slotDue (r := r) hslot hdue)
    rw [hframe]
    exact get_set_self _ _ _

/-- What every firing of a due slot keeps, a firing judgement keeps. -/
theorem fireAmong_keeps {P : State → Prop} (hfire : ∀ (i : Slot) (s : State), P s → slotDue s i = true → P (fireSlot i s))
    (test : State → Slot → Bool) {s : State} (h : P s) : P (fireAmong test s) := by
  unfold fireAmong
  generalize List.finRange 32 = slots
  induction slots generalizing s with
  | nil => exact h
  | cons i slots ih =>
    rw [List.foldl_cons]
    split
    case isTrue hdue => exact ih (hfire i s h (Bool.and_elim_right hdue))
    case isFalse => exact ih h

theorem fireAmong_steady (test : State → Slot → Bool) {s : State} (h : Steady s) : Steady (fireAmong test s) :=
  fireAmong_keeps (fun _ _ h hdue => fireSlot_steady h hdue) test h

theorem handCut_steady {s : State} (h : Steady s) : Steady (handCut s) :=
  (placeAll_tells _ _).steady { h with
    holders := { h.holders with cut := fun _ hm => absurd hm (List.not_mem_nil) } }

theorem fireDue_steady {s : State} (h : Steady s) : Steady (fireDue s) := fireAmong_steady _ (handCut_steady h)

theorem takeSchedule_steady {s : State} (h : Steady s) : Steady (takeSchedule s) := by
  unfold takeSchedule
  split
  · exact fireDue_steady h
  · exact h

end Sys2Proof.Machine
end

section
/-! SUPPORT. Lanes and trip lines: what is sound of one lane under the lines in force, and changes of lanes and lines that
keep a state steady (spec/04 R51, R52; spec/09 R132, R133). -/

namespace Sys2Proof.Machine

/-! ### A lane under the lines in force -/

/-- What a lane's state allows under the lines in force (R51, R52, R136, R145). -/
def LaneRec.SoundUnder (force : Line → Bool) (r : LaneRec) : Prop :=
  match r.status with
  | .free => r.settings = .fresh
  | .leased _ => ∀ t : Line, r.settings.tripMask[t] = true → force t = false
  | .tripped _ cause rearm =>
      ∀ t : Line, (cause[t] = true → r.settings.tripMask[t] = true) ∧
        (r.settings.tripMask[t] = true → force t = true → cause[t] = true ∧ rearm = false)
  | .orphaned => True

theorem laneSound_iff (s : State) (l : Lane) : laneSound s l ↔ s.lanes[l].SoundUnder (inForce s) := Iff.rfl

section SoundUnder

variable {force : Line → Bool} {r : LaneRec}

theorem LaneRec.soundUnder_of_free (h : r.status = .free) : r.SoundUnder force ↔ r.settings = .fresh := by
  simp only [LaneRec.SoundUnder, h]

theorem LaneRec.soundUnder_of_leased {p : Port} (h : r.status = .leased p) :
    r.SoundUnder force ↔ ∀ t : Line, r.settings.tripMask[t] = true → force t = false := by
  simp only [LaneRec.SoundUnder, h]

theorem LaneRec.soundUnder_of_tripped {p : Port} {cause : LineSet} {rearm : Bool} (h : r.status = .tripped p cause rearm) :
    r.SoundUnder force ↔ ∀ t : Line, (cause[t] = true → r.settings.tripMask[t] = true) ∧
      (r.settings.tripMask[t] = true → force t = true → cause[t] = true ∧ rearm = false) := by
  simp only [LaneRec.SoundUnder, h]

theorem LaneRec.soundUnder_of_orphaned (h : r.status = .orphaned) : r.SoundUnder force := by
  simp only [LaneRec.SoundUnder, h]

/-- A lane is as sound under fewer lines in force. -/
theorem LaneRec.SoundUnder.mono {force' : Line → Bool} (h : r.SoundUnder force)
    (hforce : ∀ t, force' t = true → force t = true) : r.SoundUnder force' := by
  cases hst : r.status with
  | free => rwa [LaneRec.soundUnder_of_free hst] at h ⊢
  | orphaned => exact LaneRec.soundUnder_of_orphaned hst
  | leased p =>
    rw [LaneRec.soundUnder_of_leased hst] at h ⊢
    exact fun t ht => Bool.eq_false_iff.mpr fun hf => Bool.false_ne_true ((h t ht).symm.trans (hforce t hf))
  | tripped p cause rearm =>
    rw [LaneRec.soundUnder_of_tripped hst] at h ⊢
    intro t
    obtain ⟨hcause, htrip⟩ := h t
    exact ⟨hcause, fun hmask hf => htrip hmask (hforce t hf)⟩

/-- A TRIPPED lane that holds rearm_pending names no line in force. -/
theorem LaneRec.SoundUnder.not_force_of_rearm {p : Port} {cause : LineSet} (h : r.SoundUnder force)
    (hst : r.status = .tripped p cause true) (t : Line) (hmask : r.settings.tripMask[t] = true) : force t = false := by
  rw [LaneRec.soundUnder_of_tripped hst] at h
  obtain ⟨-, htrip⟩ := h t
  exact Bool.eq_false_iff.mpr fun hf => by
    obtain ⟨-, hrearm⟩ := htrip hmask hf
    cases hrearm

end SoundUnder

/-! ### Other lanes and lines of the same owners -/

/-- Two records of a lane agree on its owner and its settings, and on whether it is FREE. -/
structure LaneRec.Alike (a b : LaneRec) : Prop where
  owner : a.status.owner? = b.status.owner?
  settings : a.settings = b.settings
  free : a.status = .free ↔ b.status = .free

theorem LaneRec.Alike.rfl {a : LaneRec} : a.Alike a := ⟨Eq.refl _, Eq.refl _, Iff.rfl⟩

/-- New statuses of the lanes and new judgements of the lines, with the owners they had, keep a state steady when each
lane and each line is sound again. -/
theorem Steady.with_lanes_trips {s : State} (h : Steady s) {lanes : Vector LaneRec 16} {trips : Vector TripLine 4}
    (halike : ∀ l : Lane, lanes[l].Alike s.lanes[l])
    (hlanes : ∀ l : Lane, lanes[l].SoundUnder fun t => trips[t].detect.inForce)
    (howner : ∀ t : Line, trips[t].ownership = s.trips[t].ownership)
    (hinformed : ∀ (t : Line) (p : Port), trips[t].informed[p] = true → Opened s p)
    (hlines : ∀ t : Line, lineSound trips[t]) : Steady { s with lanes := lanes, trips := trips } := by
  have hstill (period : Nat) (hfits : FitsPeriod s period) :
      FitsPeriod { s with lanes := lanes, trips := trips } period :=
    hfits.of_subset (fun l hl => ⟨mt (halike l).free.mpr hl, (halike l).settings⟩) (fun i r hr => ⟨r, hr, rfl⟩)
      fun e he => ⟨e, he, rfl⟩
  exact { h with
    holders := { h.holders with
      lanes := fun l p hp => h.holders.lanes l p ((halike l).owner.symm.trans hp)
      lines := fun t p hp => h.holders.lines t p ((congrArg Ownership.owner? (howner t)).symm.trans hp)
      informed := hinformed }
    lanes := hlanes
    lines := hlines
    samples := fun t ht hfree => h.samples t ht ((howner t).symm.trans hfree)
    targets := fun e he => targetSound_congr (h.targets e he) (fun l _ _ => (halike l).owner) fun _ _ => rfl
    fits := hstill _ h.fits
    fitsProposed := fun pr hpr => hstill _ (h.fitsProposed pr hpr) }

/-- New statuses of the lanes, with the owners they had, keep a state steady when each lane is sound again. -/
theorem Steady.with_lanes {s : State} (h : Steady s) {lanes : Vector LaneRec 16}
    (halike : ∀ l : Lane, lanes[l].Alike s.lanes[l]) (hlanes : ∀ l : Lane, lanes[l].SoundUnder (inForce s)) :
    Steady { s with lanes := lanes } :=
  h.with_lanes_trips (trips := s.trips) halike hlanes (fun _ => rfl) h.holders.informed h.lines

/-! ### The trip monitor's response to a boundary -/

theorem LaneRec.resume_of_rearm {r : LaneRec} {p : Port} {cause : LineSet} (h : r.status = .tripped p cause true) :
    r.resume = { r with status := .leased p } := by
  simp [LaneRec.resume, h]

theorem LaneRec.resume_of_not_rearm {r : LaneRec} (h : r.status.rearm = false) : r.resume = r := by
  unfold LaneRec.resume
  cases hst : r.status with
  | free | leased | orphaned => rfl
  | tripped p cause rearm =>
    rw [hst] at h
    exact if_neg (Bool.eq_false_iff.mp h)

/-- A lane holds rearm_pending only while TRIPPED. -/
theorem LaneStatus.tripped_of_rearm {st : LaneStatus} (h : st.rearm = true) : ∃ p cause, st = .tripped p cause true := by
  cases st with
  | free | leased | orphaned => cases h
  | tripped p cause rearm => exact ⟨p, cause, by rw [show rearm = true from h]⟩

theorem LaneRec.resume_alike (r : LaneRec) : r.resume.Alike r := by
  cases hrearm : r.status.rearm with
  | false => rw [LaneRec.resume_of_not_rearm hrearm]; exact .rfl
  | true =>
    obtain ⟨p, cause, hst⟩ := LaneStatus.tripped_of_rearm hrearm
    rw [LaneRec.resume_of_rearm hst]
    exact ⟨by rw [hst]; rfl, rfl, by simp [hst]⟩

theorem LaneRec.SoundUnder.resume {force : Line → Bool} {r : LaneRec} (h : r.SoundUnder force) :
    r.resume.SoundUnder force := by
  cases hrearm : r.status.rearm with
  | false => rwa [LaneRec.resume_of_not_rearm hrearm]
  | true =>
    obtain ⟨p, cause, hst⟩ := LaneStatus.tripped_of_rearm hrearm
    rw [LaneRec.resume_of_rearm hst]
    exact (LaneRec.soundUnder_of_leased rfl).mpr (h.not_force_of_rearm hst)

theorem takeResume_steady {s : State} (h : Steady s) : Steady (takeResume s) := by
  unfold takeResume
  split
  case isFalse => exact h
  case isTrue =>
    have htold := (emit_tells (fun p => if nonempty (resumedLanes s p) then some (.lanesResumed (resumedLanes s p))
      else none) s).steady h
    have hlanes := htold.with_lanes (lanes := s.lanes.map LaneRec.resume)
      (fun l => by rw [get_map]; exact LaneRec.resume_alike _)
      (fun l => by rw [get_map]; exact ((laneSound_iff s l).mp (h.lanes l)).resume)
    exact { hlanes with holders := { hlanes.holders with } }

end Sys2Proof.Machine
end

section
/-! SUPPORT. The judgement of trip samples keeps a state steady (spec/09 R134 to R140). -/

namespace Sys2Proof.Machine

/-! ### The lines -/

/-- A line in force has an owner or had one. -/
theorem lineSound.not_free {r : TripLine} (h : lineSound r) (hforce : r.detect.inForce = true) : r.ownership ≠ .free := by
  obtain ⟨hfree, -, -⟩ := h
  intro hownership
  rw [hfree hownership] at hforce
  cases hforce

/-- A monitored line under a new judgement. -/
theorem lineSound.judged {r : TripLine} (hmonitored : r.ownership ≠ .free) {detect : Detect}
    {count : Nat} {informed : PortSet}
    (hcount : detect = .idle ∨ detect = .asserted → count = 0)
    (hinformed : detect.inForce = false → informed = IdSet.none 4) :
    lineSound { r with detect := detect, qualifyCount := count, informed := informed } :=
  ⟨fun hfree => absurd hfree hmonitored, hcount, hinformed⟩

/-- A move of a sample neither puts a line in force nor takes it out, and starts no count in a settled state. -/
theorem TripLine.judge_move {r : TripLine} {high : Bool} {detect : Detect} {count : Nat}
    (h : r.judge high = .move detect count) :
    detect.inForce = r.detect.inForce ∧ (detect = .idle ∨ detect = .asserted → count = 0) := by
  unfold TripLine.judge at h
  generalize r.settings.polarity.active high = active at h
  cases hdetect : r.detect <;> cases active <;> simp only [hdetect] at h
  case qualifyingOn.false | idle.false | asserted.true | qualifyingOff.true =>
    cases h; exact ⟨rfl, fun _ => rfl⟩
  all_goals
    split at h
    · cases h
    · cases h; exact ⟨rfl, by simp⟩

/-- A sample is judged once. -/
theorem sampleTaken_steady (t : Line) {s : State} (h : Steady s) : Steady (sampleTaken t s) :=
  { h with
    holders := { h.holders with }
    samples := by
      intro j hj
      refine h.samples j ?_
      have hset : (s.due.trip.set t false)[j] = true := hj
      rw [get_set] at hset
      split at hset
      · cases hset
      · exact hset }

theorem moveLine_move_steady {s : State} (h : Steady s) {t : Line} (hmonitored : s.trips[t].ownership ≠ .free)
    {detect : Detect} {count : Nat} (hmove : sampleMove s t = .move detect count) :
    Steady { s with trips := update s.trips t fun r => { r with detect := detect, qualifyCount := count } } := by
  obtain ⟨hforce, hcount⟩ := TripLine.judge_move hmove
  have hsame (j : Line) :
      (update s.trips t fun r => { r with detect := detect, qualifyCount := count })[j].detect.inForce =
        s.trips[j].detect.inForce := by
    rw [get_update]
    split
    case isTrue hj => subst hj; exact hforce
    case isFalse => rfl
  refine h.with_lanes_trips (lanes := s.lanes) (fun l => .rfl) (fun l => ?_) (fun j => ?_) (fun j p hp => ?_) fun j => ?_
  · exact ((laneSound_iff s l).mp (h.lanes l)).mono fun j hj => (hsame j).symm.trans hj
  · rw [get_update]; split
    case isTrue hj => subst hj; rfl
    case isFalse => rfl
  · refine h.holders.informed j p ?_
    rw [get_update] at hp
    split at hp
    case isTrue hj => subst hj; exact hp
    case isFalse => exact hp
  · rw [get_update]
    split
    case isTrue =>
      obtain ⟨-, -, hinformed⟩ := h.lines t
      exact lineSound.judged hmonitored hcount fun hidle => hinformed (hforce.symm.trans hidle)
    case isFalse => exact h.lines j

/-! ### An assertion -/

section Assert

variable {t : Line} {r : LaneRec}

theorem LaneRec.onAssert_of_unnamed (h : r.settings.tripMask[t] = false) : r.onAssert t = r := by
  simp [LaneRec.onAssert, h]

theorem LaneRec.onAssert_of_leased {p : Port} (h : r.settings.tripMask[t] = true) (hst : r.status = .leased p) :
    r.onAssert t = { r with status := .tripped p (single t) false } := by
  simp [LaneRec.onAssert, h, hst]

theorem LaneRec.onAssert_of_tripped {p : Port} {cause : LineSet} {rearm : Bool} (h : r.settings.tripMask[t] = true)
    (hst : r.status = .tripped p cause rearm) :
    r.onAssert t = { r with status := .tripped p (insertId cause t) false } := by
  simp [LaneRec.onAssert, h, hst]

theorem LaneRec.onAssert_of_unowned (hst : r.status.owner? = none) : r.onAssert t = r := by
  unfold LaneRec.onAssert
  split
  · cases h : r.status with
    | free | orphaned => rfl
    | leased | tripped => rw [h] at hst; cases hst
  · rfl

theorem LaneRec.onAssert_alike (r : LaneRec) : (r.onAssert t).Alike r := by
  cases hmask : r.settings.tripMask[t] with
  | false => rw [LaneRec.onAssert_of_unnamed hmask]; exact .rfl
  | true =>
    cases hst : r.status with
    | free | orphaned => rw [LaneRec.onAssert_of_unowned (by rw [hst]; rfl)]; exact .rfl
    | leased p => rw [LaneRec.onAssert_of_leased hmask hst]; exact ⟨by rw [hst]; rfl, rfl, by simp [hst]⟩
    | tripped p cause rearm => rw [LaneRec.onAssert_of_tripped hmask hst]; exact ⟨by rw [hst]; rfl, rfl, by simp [hst]⟩

/-- A lane sound under the lines in force is sound at the assertion of one more. -/
theorem LaneRec.SoundUnder.onAssert {force force' : Line → Bool} (h : r.SoundUnder force)
    (hforce : ∀ j, force' j = true → j = t ∨ force j = true) : (r.onAssert t).SoundUnder force' := by
  cases hmask : r.settings.tripMask[t] with
  | false =>
    have hother (j : Line) (hj : r.settings.tripMask[j] = true) : j ≠ t := by
      rintro rfl
      exact Bool.false_ne_true (hmask.symm.trans hj)
    rw [LaneRec.onAssert_of_unnamed hmask]
    cases hst : r.status with
    | free => rwa [LaneRec.soundUnder_of_free hst] at h ⊢
    | orphaned => exact LaneRec.soundUnder_of_orphaned hst
    | leased p =>
      rw [LaneRec.soundUnder_of_leased hst] at h ⊢
      exact fun j hj => Bool.eq_false_iff.mpr fun hf =>
        Bool.false_ne_true ((h j hj).symm.trans ((hforce j hf).resolve_left (hother j hj)))
    | tripped p cause rearm =>
      rw [LaneRec.soundUnder_of_tripped hst] at h ⊢
      intro j
      obtain ⟨hcause, htrip⟩ := h j
      exact ⟨hcause, fun hj hf => htrip hj ((hforce j hf).resolve_left (hother j hj))⟩
  | true =>
    cases hst : r.status with
    | free =>
      rw [LaneRec.onAssert_of_unowned (by rw [hst]; rfl)]
      rwa [LaneRec.soundUnder_of_free hst] at h ⊢
    | orphaned =>
      rw [LaneRec.onAssert_of_unowned (by rw [hst]; rfl)]
      exact LaneRec.soundUnder_of_orphaned hst
    | leased p =>
      rw [LaneRec.soundUnder_of_leased hst] at h
      rw [LaneRec.onAssert_of_leased hmask hst]
      refine (LaneRec.soundUnder_of_tripped rfl).mpr fun j => ⟨fun hj => ?_, fun hj hf => ⟨?_, rfl⟩⟩
      · rw [get_single, decide_eq_true_eq] at hj
        exact hj ▸ hmask
      · rw [get_single, decide_eq_true_eq]
        exact (hforce j hf).resolve_right fun hold => Bool.false_ne_true ((h j hj).symm.trans hold)
    | tripped p cause rearm =>
      rw [LaneRec.soundUnder_of_tripped hst] at h
      rw [LaneRec.onAssert_of_tripped hmask hst]
      refine (LaneRec.soundUnder_of_tripped rfl).mpr fun j => ⟨fun hj => ?_, fun hj hf => ⟨?_, rfl⟩⟩
      all_goals obtain ⟨hcause, htrip⟩ := h j
      · rw [get_insertId, Bool.or_eq_true, decide_eq_true_eq] at hj
        obtain hold | hnew := hj
        · exact hcause hold
        · exact hnew ▸ hmask
      · rw [get_insertId, Bool.or_eq_true, decide_eq_true_eq]
        obtain hnew | hold := hforce j hf
        · exact .inr hnew
        · exact .inl (htrip hj hold).1

end Assert

/-- The ports told of an assertion own an affected lane or the line. -/
theorem Steady.opened_of_tripInformed {s : State} (h : Steady s) {t : Line} {p : Port}
    (hp : (tripInformed s t)[p] = true) : Opened s p := by
  rw [tripInformed, get_setOf, Bool.or_eq_true, nonempty_eq_true] at hp
  obtain ⟨l, hl⟩ | hline := hp
  · rw [affectedLanes, get_setOf, Bool.and_eq_true] at hl
    exact h.holders.lanes l p (of_decide_eq_true hl.2)
  · exact h.holders.lines t p (of_decide_eq_true hline)

theorem assertLine_steady {s : State} (h : Steady s) {t : Line} (hmonitored : s.trips[t].ownership ≠ .free) :
    Steady (assertLine t s) := by
  have htold := (emit_tells (fun p => if (tripInformed s t)[p] then some (.trip t (affectedLanes s t p)) else none)
    s).steady h
  refine htold.with_lanes_trips (fun l => ?_) (fun l => ?_) (fun j => ?_) (fun j p hp => ?_) fun j => ?_
  · rw [get_map]; exact LaneRec.onAssert_alike _
  · rw [get_map]
    refine ((laneSound_iff s l).mp (h.lanes l)).onAssert fun j hj => ?_
    rw [get_update] at hj
    split at hj
    case isTrue hjt => exact .inl hjt.symm
    case isFalse => exact .inr hj
  · rw [get_update]; split
    case isTrue hj => subst hj; rfl
    case isFalse => rfl
  · rw [get_update] at hp
    split at hp
    case isTrue => exact h.opened_of_tripInformed hp
    case isFalse => exact h.holders.informed j p hp
  · rw [get_update]
    split
    case isTrue => exact lineSound.judged hmonitored (fun _ => rfl) fun hforce => Bool.noConfusion hforce
    case isFalse => exact h.lines j

/-! ### A deassertion -/

section Follow

variable {s : State} {t : Line} {r : LaneRec}

theorem LaneRec.onFollow_alike (r : LaneRec) : (r.onFollow s t).Alike r := by
  unfold LaneRec.onFollow
  cases hst : r.status with
  | free | leased | orphaned => exact .rfl
  | tripped p cause rearm => dsimp only; split <;> exact ⟨(congrArg LaneStatus.owner? hst).symm, rfl, by simp [hst]⟩

/-- A lane is sound after FOLLOW recovery, which is granted only with no line of its mask in force. -/
theorem LaneRec.SoundUnder.onFollow (h : r.SoundUnder (inForce s)) : (r.onFollow s t).SoundUnder (inForce s) := by
  unfold LaneRec.onFollow
  cases hst : r.status with
  | free | leased | orphaned => exact h
  | tripped p cause rearm =>
    dsimp only
    split
    case isFalse => rw [← hst]; exact h
    case isTrue hgrant =>
      simp only [Bool.and_eq_true, Bool.not_eq_true'] at hgrant
      obtain ⟨⟨-, hnone⟩, -⟩ := hgrant
      rw [LaneRec.soundUnder_of_tripped hst] at h
      refine (LaneRec.soundUnder_of_tripped rfl).mpr fun j => ⟨(h j).1, fun hmask hforce => ?_⟩
      have hany : anyInForce s r.settings.tripMask = true :=
        (someId_eq_true _).mpr ⟨j, Bool.and_eq_true_iff.mpr ⟨hmask, hforce⟩⟩
      exact absurd hany (Bool.eq_false_iff.mp hnone)

end Follow

theorem recoverLanes_steady {s : State} (h : Steady s) (t : Line) : Steady (recoverLanes t s) := by
  unfold recoverLanes
  split
  · exact h
  · refine h.with_lanes (fun l => ?_) fun l => ?_
    · rw [get_map]; exact LaneRec.onFollow_alike _
    · rw [get_map]; exact ((laneSound_iff s l).mp (h.lanes l)).onFollow

theorem deassertLine_steady {s : State} (h : Steady s) {t : Line} (hmonitored : s.trips[t].ownership ≠ .free) :
    Steady (deassertLine t s) := by
  have htold : Steady (clearTrip t s) := (emit_tells _ s).steady h
  refine recoverLanes_steady (htold.with_lanes_trips (lanes := s.lanes) (fun l => .rfl) (fun l => ?_) (fun j => ?_)
    (fun j p hp => ?_) fun j => ?_) t
  · refine ((laneSound_iff s l).mp (h.lanes l)).mono fun j hj => ?_
    rw [get_update] at hj
    split at hj
    case isTrue => cases hj
    case isFalse => exact hj
  · rw [get_update]; split
    case isTrue hj => subst hj; rfl
    case isFalse => rfl
  · rw [get_update] at hp
    split at hp
    case isTrue => rw [get_noneId] at hp; cases hp
    case isFalse => exact h.holders.informed j p hp
  · rw [get_update]
    split
    case isTrue => exact lineSound.judged hmonitored (fun _ => rfl) fun _ => rfl
    case isFalse => exact h.lines j

/-! ### The sample -/

theorem takeSample_steady {s : State} (h : Steady s) (t : Line) : Steady (takeSample t s) := by
  unfold takeSample
  split
  case isFalse => exact h
  case isTrue hdue =>
    have htaken := sampleTaken_steady t h
    have hmonitored := h.samples t hdue
    cases hmove : sampleMove s t with
    | move detect count => exact moveLine_move_steady htaken hmonitored hmove
    | asserts => exact assertLine_steady htaken hmonitored
    | deasserts => exact deassertLine_steady htaken hmonitored

theorem takeAssertion_steady {s : State} (h : Steady s) (t : Line) : Steady (takeAssertion t s) := by
  unfold takeAssertion
  split
  case isFalse => exact h
  case isTrue hdue => exact assertLine_steady (sampleTaken_steady t h) (h.samples t (Bool.and_elim_left hdue))

theorem takeDeassertion_steady {s : State} (h : Steady s) (t : Line) : Steady (takeDeassertion t s) := by
  unfold takeDeassertion
  split
  case isFalse => exact h
  case isTrue hdue => exact deassertLine_steady (sampleTaken_steady t h) (h.samples t (Bool.and_elim_left hdue))

end Sys2Proof.Machine
end

section
/-! SUPPORT. The commit list's response to a boundary keeps a state steady: its entries are applied, and their slots are
named by no entry any more (spec/05 R70 to R73). -/

namespace Sys2Proof.Machine

/-! ### The lanes and TRIP events of the applied entries -/

/-- A LANE_SET keeps a lane sound: a LEASED lane is TRIPPED by the lines of its new mask in force, a TRIPPED one keeps
rearm_pending only without such lines. -/
theorem laneAfterSet_sound {s : State} {w : LaneSettings} {lane : LaneRec} (h : lane.SoundUnder (inForce s)) :
    (laneAfterSet s w lane).1.SoundUnder (inForce s) := by
  cases hst : lane.status with
  | free => rwa [laneAfterSet_of_unowned (by rw [hst]; rfl)]
  | orphaned => rwa [laneAfterSet_of_unowned (by rw [hst]; rfl)]
  | leased p =>
    rw [laneAfterSet_of_leased hst]
    by_cases hany : anyInForce s w.tripMask = true
    · simp only [hany, if_true]
      refine (LaneRec.soundUnder_of_tripped rfl).mpr fun t => ⟨fun ht => ?_, fun hmask hforce => ⟨?_, rfl⟩⟩
      · rw [maskInForce, get_setOf, Bool.and_eq_true] at ht
        exact ht.1
      · rw [maskInForce, get_setOf, hmask, hforce]
        rfl
    · simp only [hany]
      refine (LaneRec.soundUnder_of_leased rfl).mpr fun t hmask => Bool.eq_false_iff.mpr fun hforce => hany ?_
      exact (someId_eq_true _).mpr ⟨t, Bool.and_eq_true_iff.mpr ⟨hmask, hforce⟩⟩
  | tripped p cause rearm =>
    rw [laneAfterSet_of_tripped hst]
    rw [LaneRec.soundUnder_of_tripped hst] at h
    refine (LaneRec.soundUnder_of_tripped rfl).mpr fun t => ⟨fun ht => ?_, fun hmask hforce => ⟨?_, ?_⟩⟩
    · simp only [Fin.getElem_fin, union_getElem, inter_getElem, maskInForce, setOf_getElem, Bool.or_eq_true,
        Bool.and_eq_true] at ht
      obtain ⟨-, hmask⟩ | ⟨hmask, -⟩ := ht <;> exact hmask
    · have hmask' : w.tripMask[t] = true := hmask
      simp only [Fin.getElem_fin] at hmask'
      simp [maskInForce, hmask', hforce]
    · rw [Bool.and_eq_false_iff]
      by_cases hcause : cause[t] = true
      · obtain ⟨hold, htrip⟩ := h t
        exact .inl (htrip (hold hcause) hforce).2
      · refine .inr ?_
        rw [Bool.not_eq_false', nonempty_eq_true]
        refine ⟨t, ?_⟩
        have hmask' : w.tripMask[t] = true := hmask
        simp only [Fin.getElem_fin] at hmask' hcause
        simp [maskInForce, hmask', hforce, hcause]

/-- The lines that a LANE_SET adds to a lane's cause are in force. -/
theorem inForce_of_laneAfterSet {s : State} {w : LaneSettings} {lane : LaneRec} {t : Line}
    (h : (laneAfterSet s w lane).2[t] = true) : inForce s t = true := by
  cases hst : lane.status with
  | free | orphaned =>
    rw [laneAfterSet_of_unowned (by rw [hst]; rfl), get_replicate] at h
    cases h
  | leased p =>
    rw [laneAfterSet_of_leased hst, maskInForce, get_setOf, Bool.and_eq_true] at h
    exact h.2
  | tripped p cause rearm =>
    rw [laneAfterSet_of_tripped hst] at h
    simp only [Fin.getElem_fin, minus_getElem, maskInForce, setOf_getElem, Bool.and_eq_true] at h
    exact h.1.2

/-- Applied LANE_SETs keep every lane sound. -/
theorem lanesAfterSets_sound {s : State} (h : ∀ l : Lane, s.lanes[l].SoundUnder (inForce s)) (es : List Entry) (l : Lane) :
    (lanesAfterSets s es).1[l].SoundUnder (inForce s) := by
  induction es using List.reverseRecOn generalizing l with
  | nil => exact h l
  | append_singleton es e ih =>
    obtain ⟨m, w, ha⟩ | ha := e.laneSet_or_other
    · rw [lanesAfterSets_append_laneSet es s ha, get_set]
      split
      · exact laneAfterSet_sound (ih m)
      · exact ih l
    · rw [lanesAfterSets_append_other es s ha]
      exact ih l

/-- A lane after applied LANE_SETs is what it was, or has an owner and the settings of one of them. -/
theorem lanesAfterSets_cases (es : List Entry) (s : State) (l : Lane) :
    (lanesAfterSets s es).1[l] = s.lanes[l] ∨
      s.lanes[l].status.owner? ≠ none ∧ ∃ e ∈ es, e.action = .laneSet l (lanesAfterSets s es).1[l].settings := by
  induction es using List.reverseRecOn with
  | nil => exact .inl rfl
  | append_singleton es e ih =>
    have hbefore : (lanesAfterSets s es).1[l] = s.lanes[l] ∨
        s.lanes[l].status.owner? ≠ none ∧ ∃ e' ∈ es ++ [e], e'.action = .laneSet l (lanesAfterSets s es).1[l].settings :=
      ih.imp id fun ⟨howner, e', he', hset⟩ => ⟨howner, e', List.mem_append_left _ he', hset⟩
    obtain ⟨m, w, ha⟩ | ha := e.laneSet_or_other
    · rw [lanesAfterSets_append_laneSet es s ha, get_set]
      split
      case isFalse => exact hbefore
      case isTrue hm =>
        subst hm
        by_cases howner : (lanesAfterSets s es).1[m].status.owner? = none
        · rwa [laneAfterSet_of_unowned howner]
        · refine .inr ⟨by rwa [← lanesAfterSets_owner es s m], e, by simp, ?_⟩
          rw [laneAfterSet_settings howner, ha]
    · rwa [lanesAfterSets_append_other es s ha]

/-- The TRIP events of applied LANE_SETs go to owners of lanes, of lines in force. -/
theorem lanesAfterSets_told (es : List Entry) (s : State) {x : Port × Line × Lane} (hx : x ∈ (lanesAfterSets s es).2) :
    (∃ l : Lane, s.lanes[l].status.owner? = some x.1) ∧ inForce s x.2.1 = true := by
  induction es using List.reverseRecOn with
  | nil => cases hx
  | append_singleton es e ih =>
    obtain ⟨m, w, ha⟩ | ha := e.laneSet_or_other
    · rw [lanesAfterSets_append_laneSet es s ha] at hx
      obtain hold | hnew := List.mem_append.mp hx
      · exact ih hold
      · cases howner : (lanesAfterSets s es).1[m].status.owner? with
        | none => rw [laneSetTrips_of_unowned howner] at hnew; cases hnew
        | some p =>
          rw [laneSetTrips_of_owner howner] at hnew
          obtain ⟨k, hk, rfl⟩ := List.mem_map.mp hnew
          rw [lanesAfterSets_owner] at howner
          exact ⟨⟨m, howner⟩, inForce_of_laneAfterSet ((mem_members _ _).mp hk)⟩
    · rw [lanesAfterSets_append_other es s ha] at hx
      exact ih hx

/-! ### The lines told -/

theorem linesTold_getElem (xs : List (Port × Line × Lane)) (trips : Vector TripLine 4) (k : Line) :
    (linesTold xs trips)[k] =
      { trips[k] with
        informed := setOf fun p => trips[k].informed[p] || xs.any fun x => decide (x.1 = p ∧ x.2.1 = k) } :=
  get_tabulate _ k

/-- A line of which no TRIP event tells is as it was. -/
theorem linesTold_of_untold {xs : List (Port × Line × Lane)} {k : Line} (h : ∀ x ∈ xs, x.2.1 ≠ k)
    (trips : Vector TripLine 4) : (linesTold xs trips)[k] = trips[k] := by
  have hinformed : (setOf fun p => trips[k].informed[p] || xs.any fun x => decide (x.1 = p ∧ x.2.1 = k)) =
      trips[k].informed := by
    refine table_ext fun p => ?_
    rw [get_setOf, List.any_eq_false.mpr fun x hx => by simp [h x hx], Bool.or_false]
  rw [linesTold_getElem, hinformed]

/-- TRIP events of lines in force keep every line sound. -/
theorem linesTold_sound {xs : List (Port × Line × Lane)} {trips : Vector TripLine 4}
    (h : ∀ k : Line, lineSound trips[k]) (hforce : ∀ x ∈ xs, trips[x.2.1].detect.inForce = true) (k : Line) :
    lineSound (linesTold xs trips)[k] := by
  cases hk : trips[k].detect.inForce with
  | false =>
    have huntold : ∀ x ∈ xs, x.2.1 ≠ k := by
      rintro x hx rfl
      exact Bool.false_ne_true (hk.symm.trans (hforce x hx))
    rw [linesTold_of_untold huntold]
    exact h k
  | true =>
    obtain ⟨-, hcount, -⟩ := h k
    rw [linesTold_getElem]
    exact ⟨fun hfree => absurd hfree ((h k).not_free hk), hcount, fun hnot => absurd (hk.symm.trans hnot) nofun⟩

/-! ### The entries -/

/-- No two entries name one slot. -/
theorem Steady.named_once {s : State} (h : Steady s) {e e' : Entry} (he : e ∈ s.commits) (he' : e' ∈ s.commits)
    {i : Slot} (hi : e.names i = true) (hi' : e'.names i = true) : e = e' := by
  have hone : (s.commits.filter (Entry.names i)).length ≤ 1 := by
    rw [h.named i]
    unfold entriesDue
    split
    · exact Nat.zero_le _
    · split <;> omega
  have hmem := List.mem_filter.mpr ⟨he, hi⟩
  have hmem' := List.mem_filter.mpr ⟨he', hi'⟩
  obtain ⟨a, ha⟩ | hnil := (Nat.le_one_iff_eq_zero_or_eq_one.mp hone).symm.imp
    List.length_eq_one_iff.mp List.length_eq_zero_iff.mp
  · rw [ha] at hmem hmem'
    exact (List.mem_singleton.mp hmem).trans (List.mem_singleton.mp hmem').symm
  · rw [hnil] at hmem
    cases hmem

theorem mem_appliedEntries {s : State} {e : Entry} : e ∈ appliedEntries s ↔ e ∈ s.commits ∧ e.held = false := by
  simp [appliedEntries]

/-- A slot that no applied entry names is as it was. -/
theorem slotsAfterEntries_of_unnamed {es : List Entry} {i : Slot} (h : ∀ e ∈ es, e.names i = false)
    (slots : Vector (Option SlotRec) 32) : (slotsAfterEntries es slots)[i] = slots[i] := by
  have hremoves : (es.any fun e => e.removes i) = false := List.any_eq_false.mpr fun e he => by
    have := h e he
    simp_all [Entry.names]
  have hadds : (es.any fun e => e.adds i) = false := List.any_eq_false.mpr fun e he => by
    have := h e he
    simp_all [Entry.names]
  rw [slotsAfterEntries_getElem, hremoves, hadds]
  rfl

/-- A slot that an applied entry names is EMPTY or LIVE after it. -/
theorem slotsAfterEntries_of_named {es : List Entry} {i : Slot} (h : ∃ e ∈ es, e.names i = true)
    (slots : Vector (Option SlotRec) 32) : entriesDue (slotsAfterEntries es slots)[i] = 0 := by
  rw [slotsAfterEntries_getElem]
  split
  case isTrue => rfl
  case isFalse hremoves =>
    obtain ⟨e, he, hnames⟩ := h
    have hadds : (es.any fun e => e.adds i) = true := by
      refine List.any_eq_true.mpr ⟨e, he, ?_⟩
      refine (Bool.or_eq_true_iff.mp hnames).resolve_right fun hremove => hremoves ?_
      exact List.any_eq_true.mpr ⟨e, he, hremove⟩
    rw [hadds, if_pos rfl]
    cases slots[i] <;> rfl

/-- The record of a slot after applied entries is an old one, made LIVE at most. -/
theorem mem_slotsAfterEntries {es : List Entry} {slots : Vector (Option SlotRec) 32} {i : Slot} {r : SlotRec}
    (h : (slotsAfterEntries es slots)[i] = some r) :
    ∃ r', slots[i] = some r' ∧ r'.owner = r.owner ∧ r'.offset = r.offset := by
  rw [slotsAfterEntries_getElem] at h
  split at h
  · cases h
  · split at h
    · obtain ⟨r', hr', rfl⟩ := Option.map_eq_some_iff.mp h
      exact ⟨r', hr', rfl, rfl⟩
    · exact ⟨r, h, rfl, rfl⟩

/-! ### The response -/

theorem entriesApplied_fits {s : State} {period : Nat} (h : FitsPeriod s period) :
    FitsPeriod (entriesApplied s) period := by
  obtain ⟨hlanes, hslots, hentries⟩ := h
  refine ⟨fun l hl => ?_, fun i r hr => ?_, fun e he => hentries e (List.mem_of_mem_filter he)⟩
  · change (lanesAfterSets s (appliedEntries s)).1[l].status ≠ .free at hl
    change (lanesAfterSets s (appliedEntries s)).1[l].settings.onAt < period ∧
      (lanesAfterSets s (appliedEntries s)).1[l].settings.length ≤ period
    obtain hsame | ⟨-, e, he, hset⟩ := lanesAfterSets_cases (appliedEntries s) s l
    · rw [hsame] at hl ⊢
      exact hlanes l hl
    · have hfit := hentries e (mem_appliedEntries.mp he).1
      rw [hset] at hfit
      exact hfit
  · obtain ⟨r', hr', -, hoffset⟩ := mem_slotsAfterEntries hr
    exact hoffset ▸ hslots i r' hr'

theorem entriesApplied_steady {s : State} (h : Steady s) : Steady (entriesApplied s) := by
  obtain ⟨hlist, hshare⟩ := h.list_of_sublist (List.filter_sublist (p := fun e => e.held))
  have hsplit {e e' : Entry} (he : e ∈ s.commits) (hheld : e.held = true) (he' : e' ∈ appliedEntries s) (i : Slot)
      (hi : e.names i = true) : e'.names i = false := by
    obtain ⟨hin', hunheld⟩ := mem_appliedEntries.mp he'
    refine Bool.eq_false_iff.mpr fun hi' => ?_
    rw [h.named_once he hin' hi hi', hunheld] at hheld
    cases hheld
  exact { h with
    delivery := by
      intro p
      change (deliveryTold _ s)[p].Fits
      rw [deliveryTold_getElem]
      split
      · exact (h.delivery p).pushTrips p _ _
      · exact h.delivery p
    list := hlist
    share := hshare
    holders := { h.holders with
      lanes := fun l p hp => h.holders.lanes l p ((lanesAfterSets_owner _ s l).symm.trans hp)
      lines := by
        intro k p hp
        refine h.holders.lines k p ?_
        change (linesTold _ s.trips)[k].ownership.owner? = some p at hp
        rwa [linesTold_getElem] at hp
      informed := by
        intro k p hp
        change (linesTold _ s.trips)[k].informed[p] = true at hp
        rw [linesTold_getElem, get_setOf, Bool.or_eq_true, List.any_eq_true] at hp
        obtain hold | ⟨x, hx, hxp⟩ := hp
        · exact h.holders.informed k p hold
        · obtain ⟨⟨l, hl⟩, -⟩ := lanesAfterSets_told _ s hx
          obtain ⟨rfl, -⟩ := of_decide_eq_true hxp
          exact h.holders.lanes l x.1 hl
      slots := by
        intro i r hr
        obtain ⟨r', hr', howner, -⟩ := mem_slotsAfterEntries hr
        exact howner ▸ h.holders.slots i r' hr'
      entries := fun e he => h.holders.entries e (List.mem_of_mem_filter he)
      delivery := by
        intro p hp
        change (deliveryTold _ s)[p] = .reset
        rw [deliveryTold_getElem, if_neg (mt (isOpen_iff (s := s)).mp hp)]
        exact h.holders.delivery p hp }
    lanes := by
      intro l
      refine (lanesAfterSets_sound (fun l => (laneSound_iff s l).mp (h.lanes l)) _ l).mono fun k hk => ?_
      exact (congrArg Detect.inForce (linesTold_detect _ s.trips k)).symm.trans hk
    lines := fun k => linesTold_sound h.lines (fun x hx => (lanesAfterSets_told _ s hx).2) k
    samples := by
      intro k hk hfree
      change (linesTold _ s.trips)[k].ownership = .free at hfree
      rw [linesTold_getElem] at hfree
      exact h.samples k hk hfree
    targets := by
      intro e he
      obtain ⟨hin, hheld⟩ := List.mem_filter.mp he
      exact targetSound_congr (h.targets e hin) (fun l _ _ => lanesAfterSets_owner _ s l) fun i hi =>
        slotsAfterEntries_of_unnamed (fun e' he' => hsplit hin hheld he' i hi) _
    named := by
      intro i
      change ((s.commits.filter fun e => e.held).filter (Entry.names i)).length =
        entriesDue (slotsAfterEntries (appliedEntries s) s.slots)[i]
      by_cases hnamed : ∃ e ∈ appliedEntries s, e.names i = true
      · rw [slotsAfterEntries_of_named hnamed, List.length_eq_zero_iff, List.filter_eq_nil_iff]
        obtain ⟨e', he', hi'⟩ := hnamed
        intro e he hi
        obtain ⟨hin, hheld⟩ := List.mem_filter.mp he
        rw [hsplit hin hheld he' i hi] at hi'
        cases hi'
      · have hnone : ∀ e ∈ appliedEntries s, e.names i = false :=
          fun e he => Bool.eq_false_iff.mpr fun hi => hnamed ⟨e, he, hi⟩
        rw [slotsAfterEntries_of_unnamed hnone, ← h.named i, List.filter_filter]
        refine congrArg List.length (List.filter_congr fun e he => ?_)
        cases hheld : e.held with
        | true => rw [Bool.and_true]
        | false => rw [hnone e (mem_appliedEntries.mpr ⟨he, hheld⟩), Bool.false_and]
    held := fun e he => h.held e (List.mem_of_mem_filter he)
    fits := entriesApplied_fits h.fits
    fitsProposed := fun pr hpr => entriesApplied_fits (h.fitsProposed pr hpr) }

theorem reportGroups_steady (es : List Entry) {s : State} (h : Steady s) : Steady (reportGroups es s) := by
  have htold := (emit_tells (fun p => if s.groupReport[p] then some (.groupApplied (releasedOf p es)) else none) s).steady h
  exact { htold with
    holders := { htold.holders with
      reports := by
        intro p hp
        rw [show (reportGroups es s).groupReport[p] = false from get_replicate _ p] at hp
        cases hp } }

theorem takeCommits_steady {s : State} (h : Steady s) : Steady (takeCommits s) := by
  unfold takeCommits
  split
  case isFalse => exact h
  case isTrue =>
    have hfired := fireAmong_steady (fun _ i => (appliedEntries s).any fun e => e.adds i) (entriesApplied_steady h)
    rw [← applyEntries_eq_entriesApplied] at hfired
    exact reportGroups_steady (appliedEntries s) hfired

end Sys2Proof.Machine
end

section
/-! SUPPORT. The agreement unit's response to a boundary keeps a state steady (spec/10 R160 to R162, spec/01 R9, spec/02
R33). -/

namespace Sys2Proof.Machine

/-- A commit at the counter value 0 leaves the timebase in range. -/
theorem Timebase.InRange.commit {tb : Timebase} (h : tb.InRange) (hcounter : tb.counter = 0) {pr : Proposal}
    (hallowed : pr.Allowed) : (tb.commit pr.period pr.source).InRange := by
  obtain ⟨hperiod, hsource⟩ := hallowed
  have hzero : tb.counter < pr.period := by omega
  cases hbefore : tb.source with
  | free =>
    cases hafter : pr.source with
    | free =>
      simp only [Timebase.commit, hbefore]
      exact { h with
        period := hperiod, follows := fun hf => (nomatch hf), counter := hzero
        state := rfl }
    | follow w =>
      rw [Timebase.commit_free_follow hbefore]
      simp only [hafter, NewSource.inRange, Bool.and_eq_true, decide_eq_true_eq] at hsource
      obtain ⟨⟨hlow, hhigh⟩, heighth⟩ := hsource
      exact { h with
        period := hperiod, window := ⟨hlow, hhigh⟩, follows := fun _ => heighth, counter := hzero, state := rfl }
  | follow =>
    cases hafter : pr.source with
    | free =>
      rw [Timebase.commit_follow_free hbefore]
      exact { h with period := hperiod, follows := fun hf => (nomatch hf), counter := hzero, state := rfl }
    | follow w =>
      rw [Timebase.commit_follow_follow hbefore]
      simp only [hafter, NewSource.inRange, Bool.and_eq_true, decide_eq_true_eq] at hsource
      obtain ⟨⟨hlow, hhigh⟩, heighth⟩ := hsource
      exact { h with period := hperiod, window := ⟨hlow, hhigh⟩, follows := fun _ => heighth, counter := hzero }

theorem SyncMonitor.InRange.cleared : SyncMonitor.cleared.InRange :=
  ⟨by decide, by decide, fun _ hn => (Option.not_mem_none _ hn).elim, by decide⟩

theorem SyncMonitor.InRange.commit {m : SyncMonitor} (h : m.InRange) (before : Source) (after : NewSource) :
    (m.commit before after).InRange := by
  cases before <;> cases after
  · exact h
  · exact .cleared
  · exact .cleared
  · exact { h with slip := Nat.zero_le _ }

/-- A commit keeps the counter and the seq, and takes the proposal's period. -/
theorem Timebase.commit_fields (tb : Timebase) (period : Nat) (source : NewSource) :
    (tb.commit period source).counter = tb.counter ∧ (tb.commit period source).period = period ∧
      (tb.commit period source).seq = tb.seq := by
  unfold Timebase.commit
  split <;> exact ⟨rfl, rfl, rfl⟩

/-- A grace open after a commit was open before it, in a timebase that stays LOCKED. -/
theorem grace_commit {tb : Timebase} {m : SyncMonitor} (hstate : m.grace = true → tb.state = .locked)
    (hunder : tb.state.underSource tb.source = true) {period : Nat} {source : NewSource}
    (hgrace : (m.commit tb.source source).grace = true) : (tb.commit period source).state = .locked := by
  cases hbefore : tb.source with
  | free =>
    rw [hbefore] at hgrace hunder
    cases source with
    | free => rw [hstate hgrace] at hunder; cases hunder
    | follow w => cases hgrace
  | follow =>
    rw [hbefore] at hgrace
    cases source with
    | free => cases hgrace
    | follow w => rw [Timebase.commit_follow_follow hbefore]; exact hstate hgrace

/-- A proposal ends: nothing of it remains. -/
theorem endProposal_steady {s : State} (h : Steady s) (id : Nat) (outcome : ProposalOutcome) :
    Steady (endProposal id outcome s) :=
  (emitAll_tells _ _).steady { h with
    allowed := fun _ hpr => (Option.not_mem_none _ hpr).elim
    response := fun hdue => Bool.noConfusion hdue
    holders := { h.holders with
      proposer := fun _ hpr => (Option.not_mem_none _ hpr).elim
      electorate := fun _ hpr => (Option.not_mem_none _ hpr).elim
      accepted := fun _ hpr => (Option.not_mem_none _ hpr).elim }
    fitsProposed := fun _ hpr => (Option.not_mem_none _ hpr).elim
    running := fun _ hpr => (Option.not_mem_none _ hpr).elim
    stands := fun _ hpr => (Option.not_mem_none _ hpr).elim }

/-- The commit of a proposal whose response is due: it stands at the counter value 0, and everything fits its period. -/
theorem commitProposal_steady {s : State} (h : Steady s) {pr : Proposal} (hpr : s.agreement.proposal = some pr)
    (hdue : s.due.agreement = true) : Steady (commitProposal pr s) := by
  obtain ⟨-, hzero⟩ := h.response hdue
  have htb := h.tb.commit hzero (h.allowed pr hpr)
  obtain ⟨hcounter, hperiod, -⟩ := s.tb.commit_fields pr.period pr.source
  refine (emitAll_tells _ _).steady { h with
    tb := htb
    sync := h.sync.commit s.tb.source pr.source
    grace := fun hgrace => ⟨grace_commit (fun hg => (h.grace hg).1) h.tb.state hgrace, ?_⟩
    allowed := fun _ hpr => (Option.not_mem_none _ hpr).elim
    response := fun hdue => Bool.noConfusion hdue
    sessions := ?_
    holders := { h.holders with
      proposer := fun _ hpr => (Option.not_mem_none _ hpr).elim
      electorate := fun _ hpr => (Option.not_mem_none _ hpr).elim
      accepted := fun _ hpr => (Option.not_mem_none _ hpr).elim }
    fits := ?_
    fitsProposed := fun _ hpr => (Option.not_mem_none _ hpr).elim
    running := fun _ hpr => (Option.not_mem_none _ hpr).elim
    stands := fun _ hpr => (Option.not_mem_none _ hpr).elim }
  · change (s.tb.commit pr.period pr.source).counter ≤ _
    rw [hcounter, hzero]
    exact Nat.zero_le _
  · intro p
    change s.sessions[p].sound (decide ((s.tb.commit pr.period pr.source).counter = 0) && !s.due.wrap) = true
    rw [hcounter]
    exact h.sessions p
  · change FitsPeriod s (s.tb.commit pr.period pr.source).period
    rw [hperiod]
    exact h.fitsProposed pr hpr

theorem takeProposalCommit_steady {s : State} (h : Steady s) : Steady (takeProposalCommit s) := by
  unfold takeProposalCommit
  split
  case h_1 pr hdue hpr =>
    split
    · exact commitProposal_steady h hpr hdue
    · exact h
  case h_2 => exact h

theorem takeProposalExpiry_steady {s : State} (h : Steady s) : Steady (takeProposalExpiry s) := by
  unfold takeProposalExpiry
  split
  case h_2 => exact h
  case h_1 pr hdue hpr =>
    split
    case h_2 => exact h
    case h_1 hopen =>
      split
      case isTrue => exact endProposal_steady h _ _
      case isFalse hleft =>
        exact { h with
          response := fun hdue => Bool.noConfusion hdue
          holders := { h.holders with }
          stands := by
            intro pr' hpr'
            cases Option.mem_unique hpr hpr'
            exact { h.stands pr hpr with framesLeft := fun _ hzero => absurd hzero hleft } }

theorem takeAgreement_steady {s : State} (h : Steady s) : Steady (takeAgreement s) :=
  takeProposalExpiry_steady (takeProposalCommit_steady h)

end Sys2Proof.Machine
end

section
/-! SUPPORT. The end of a session as one state equation: every block releases what the port held, and the events of the
end follow (spec/03 R41, R45; spec/09 R148; spec/10 R159). -/

namespace Sys2Proof.Machine

/-! ### The agreement unit at a session end -/

/-- The proposal after the end of port p's session: its own ends, another loses p as a voter (R159). -/
def proposalAfterEnd (p : Port) : Option Proposal → Option Proposal
  | none => none
  | some pr => if pr.proposer = p then none else if pr.electorate[p] then some (pr.without p) else some pr

/-- The agreement unit's response is due after the end of port p's session: a proposal that ends needs none. -/
def responseAfterEnd (p : Port) (s : State) : Bool :=
  s.due.agreement && s.agreement.proposal.all fun pr => decide (pr.proposer ≠ p)

/-- The end of port p's own proposal is told to every OPEN port. -/
def tellWithdrawn (p : Port) (proposal : Option Proposal) (s : State) : State :=
  match proposal with
  | none => s
  | some pr => if pr.proposer = p then emitAll (.proposalEnded pr.id .withdrawn) s else s

theorem agreementEnded_eq (p : Port) (s : State) :
    agreementEnded p s = tellWithdrawn p s.agreement.proposal
      { s with
        agreement := { s.agreement with proposal := proposalAfterEnd p s.agreement.proposal }
        due := { s.due with agreement := responseAfterEnd p s } } := by
  cases hpr : s.agreement.proposal with
  | none =>
    simp only [agreementEnded, tellWithdrawn, proposalAfterEnd, responseAfterEnd, hpr, Option.all_none, Bool.and_true]
    rw [← hpr]
  | some pr =>
    by_cases hown : pr.proposer = p
    · simp only [agreementEnded, tellWithdrawn, proposalAfterEnd, responseAfterEnd, hpr, hown, if_true, Option.all_some,
        ne_eq, not_true, decide_false, Bool.and_false]
      rfl
    · simp only [agreementEnded, tellWithdrawn, proposalAfterEnd, responseAfterEnd, hpr, hown, if_false, Option.all_some,
        ne_eq, not_false_iff, decide_true, Bool.and_true]
      split
      · rfl
      · simp only [← hpr]

theorem mem_proposalAfterEnd {p : Port} {proposal : Option Proposal} {pr' : Proposal}
    (h : proposalAfterEnd p proposal = some pr') : ∃ pr, proposal = some pr ∧ pr.proposer ≠ p ∧
      ((pr.electorate[p] = true ∧ pr' = pr.without p) ∨ (pr.electorate[p] = false ∧ pr' = pr)) := by
  cases proposal with
  | none => cases h
  | some pr =>
    rw [proposalAfterEnd] at h
    split at h
    case isTrue => cases h
    case isFalse hother =>
      split at h
      case isTrue hvoter => cases h; exact ⟨_, rfl, hother, .inl ⟨hvoter, rfl⟩⟩
      case isFalse hvoter => cases h; exact ⟨_, rfl, hother, .inr ⟨Bool.eq_false_iff.mpr hvoter, rfl⟩⟩

/-! ### The whole end -/

/-- The state with all that port p held released, before anything is told of it (R41, R45). -/
def withoutPort (k : EndKind) (p : Port) (s : State) : State :=
  { purge k p s with
    agreement := { s.agreement with proposal := proposalAfterEnd p s.agreement.proposal }
    due := { (purge k p s).due with agreement := responseAfterEnd p s } }

/-- TRIP_CLEARED for freed lines does not turn on the agreement unit. -/
theorem clearFreed_with_agreement (k : EndKind) (b : State) (p : Port) (s : State) (ag : Agreement) (du : Due) :
    clearFreed k b p { s with agreement := ag, due := du } = { clearFreed k b p s with agreement := ag, due := du } := by
  unfold clearFreed
  generalize List.finRange 4 = lines
  induction lines generalizing s with
  | nil => rfl
  | cons t lines ih =>
    rw [List.foldl_cons, List.foldl_cons]
    split
    · exact ih (emit _ s)
    · exact ih s

/-- The end of a session: everything released, then TRIP_CLEARED for the freed lines, then PROPOSAL_ENDED (log 12). -/
theorem endSession_eq (k : EndKind) (p : Port) (s : State) :
    endSession k p s = tellWithdrawn p s.agreement.proposal (clearFreed k s p (withoutPort k p s)) := by
  obtain ⟨d, hd⟩ := clearFreed_frame k s p (purge k p s)
  rw [withoutPort, clearFreed_with_agreement, endSession, agreementEnded_eq, hd]
  rfl

theorem tellWithdrawn_tells (p : Port) (proposal : Option Proposal) (s : State) :
    Tells s (tellWithdrawn p proposal s) := by
  unfold tellWithdrawn
  split
  · exact .rfl
  · split
    · exact emitAll_tells _ s
    · exact .rfl

theorem endSession_tells (k : EndKind) (p : Port) (s : State) : Tells (withoutPort k p s) (endSession k p s) := by
  rw [endSession_eq]
  exact (clearFreed_tells _ _ _ _).trans (tellWithdrawn_tells _ _ _)

/-! ### What is released -/

section Released

variable (k : EndKind) (p : Port) (s : State)

theorem withoutPort_sessions : (withoutPort k p s).sessions = s.sessions.set p (s.sessions[p].ended k) := rfl

theorem withoutPort_lanes (l : Lane) : (withoutPort k p s).lanes[l] =
    if s.lanes[l].status.owner? = some p then s.lanes[l].ended k else s.lanes[l] := by
  refine (get_tabulate _ l).trans ?_
  simp only [ownsLane, decide_eq_true_eq]

theorem withoutPort_trips (t : Line) : (withoutPort k p s).trips[t] = lineEnded k s p t := get_tabulate _ t

theorem withoutPort_slots (i : Slot) :
    (withoutPort k p s).slots[i] = s.slots[i].filter fun r => decide (r.owner ≠ p) := by
  refine (get_tabulate _ i).trans ?_
  unfold ownsSlot
  cases s.slots[i] with
  | none => rfl
  | some r => by_cases h : r.owner = p <;> simp [h, Option.filter_some]

theorem withoutPort_trip_due (t : Line) : (withoutPort k p s).due.trip[t] = (s.due.trip[t] && !goesFree k s p t) :=
  get_setOf _ t

variable {k p s}

theorem goesFree_of_lapse (t : Line) : goesFree .lapse s p t = false := rfl

theorem ownsLine_of_goesFree {t : Line} (h : goesFree k s p t = true) : ownsLine s p t = true := by
  cases k with
  | lapse => cases h
  | close => exact Bool.and_elim_left h

theorem ownsLine_iff {t : Line} : ownsLine s p t = true ↔ s.trips[t].ownership = .owned p := by
  rw [ownsLine, decide_eq_true_eq]
  cases s.trips[t].ownership <;> simp [Ownership.owner?]

theorem lineEnded_of_freed {t : Line} (h : goesFree k s p t = true) : lineEnded k s p t = .reset := if_pos h

theorem lineEnded_of_kept {t : Line} (h : goesFree k s p t = false) :
    lineEnded k s p t =
      { s.trips[t] with
        ownership := if s.trips[t].ownership = .owned p then .orphaned else s.trips[t].ownership
        informed := s.trips[t].informed.set p false } := by
  rw [lineEnded, h, if_neg Bool.false_ne_true, eraseId_eq_set]
  simp only [ownsLine_iff]

theorem LaneRec.ended_owner (r : LaneRec) : (r.ended k).status.owner? = none := by cases k <;> rfl

theorem Session.ended_not_opened (r : Session) : (r.ended k).state ≠ .opened := by cases k <;> exact nofun

/-- The session record that a close leaves is sound, and so is the one that a due lapse leaves. -/
theorem Session.sound_close (r : Session) (b : Bool) : (r.ended .close).sound b = true := rfl

theorem Session.sound_lapse {r : Session} {b : Bool} (h : r.sound b = true) (hlapses : r.lapses = true) :
    (r.ended .lapse).sound b = true := by
  have hopen := Session.opened_of_lapses hlapses
  obtain ⟨limit, count, threshold, hlimit, hcount, hthreshold, hl, ht, hat⟩ := (Session.sound_opened_iff hopen b).mp h
  have hreached := (Session.lapses_iff hopen hlimit hcount).mp hlapses
  have hequal : count = limit := by omega
  simp [Session.sound, Session.ended, hlimit, hcount, hthreshold, hl, ht, hequal]

end Released

end Sys2Proof.Machine
end

section
/-! SUPPORT. The end of a session keeps a state steady (spec/03 R41, R45). -/

namespace Sys2Proof.Machine

section Released

variable {k : EndKind} {p : Port} {s : State}

/-- The other ports' sessions stay as they are. -/
theorem withoutPort_opened {q : Port} (hq : q ≠ p) (h : Opened s q) : Opened (withoutPort k p s) q := by
  rw [Opened, withoutPort_sessions, get_set_of_ne _ _ hq]
  exact h

/-- A lane with an owner after the release is another port's, as it was. -/
theorem withoutPort_lane_of_owner {l : Lane} {q : Port} (h : (withoutPort k p s).lanes[l].status.owner? = some q) :
    q ≠ p ∧ s.lanes[l].status.owner? = some q := by
  rw [withoutPort_lanes] at h
  split at h
  case isTrue => rw [LaneRec.ended_owner] at h; cases h
  case isFalse hother =>
    refine ⟨?_, h⟩
    rintro rfl
    exact hother h

/-- A line with an owner after the release is another port's, as it was. -/
theorem withoutPort_line_of_owner {t : Line} {q : Port} (h : (withoutPort k p s).trips[t].ownership.owner? = some q) :
    q ≠ p ∧ s.trips[t].ownership.owner? = some q := by
  rw [withoutPort_trips] at h
  cases hfree : goesFree k s p t with
  | true => rw [lineEnded_of_freed hfree] at h; cases h
  | false =>
    rw [lineEnded_of_kept hfree] at h
    dsimp only at h
    split at h
    case isTrue => cases h
    case isFalse hother =>
      refine ⟨?_, h⟩
      rintro rfl
      cases hownership : s.trips[t].ownership with
      | free | orphaned => rw [hownership] at h; cases h
      | owned r =>
        rw [hownership] at h hother
        cases h
        exact hother rfl

/-- A line that a port was told of after the release is one that another port was told of. -/
theorem withoutPort_line_of_informed {t : Line} {q : Port} (h : (withoutPort k p s).trips[t].informed[q] = true) :
    q ≠ p ∧ s.trips[t].informed[q] = true := by
  rw [withoutPort_trips] at h
  cases hfree : goesFree k s p t with
  | true =>
    rw [lineEnded_of_freed hfree] at h
    exact absurd ((get_noneId q).symm.trans h) nofun
  | false =>
    rw [lineEnded_of_kept hfree, get_set] at h
    split at h
    case isTrue => cases h
    case isFalse hq => exact ⟨Ne.symm hq, h⟩

theorem withoutPort_slot_of_some {i : Slot} {r : SlotRec} (h : (withoutPort k p s).slots[i] = some r) :
    r.owner ≠ p ∧ s.slots[i] = some r := by
  rw [withoutPort_slots] at h
  obtain ⟨hslot, howner⟩ := Option.filter_eq_some_iff.mp h
  exact ⟨of_decide_eq_true howner, hslot⟩

theorem withoutPort_slot_of_other {i : Slot} {r : SlotRec} (hslot : s.slots[i] = some r) (hother : r.owner ≠ p) :
    (withoutPort k p s).slots[i] = s.slots[i] := by
  rw [withoutPort_slots, hslot]
  simp [hother]

/-- A conversion after the release has its owner, if that is another port. -/
theorem Conversion.disown_owner {c : Conversion} {q : Port} (h : (c.disown p).request.owner = some q) :
    q ≠ p ∧ c.request.owner = some q := by
  unfold Conversion.disown at h
  split at h
  case isTrue => cases h
  case isFalse hother =>
    refine ⟨?_, h⟩
    rintro rfl
    exact hother h

theorem Conversion.disown_fields (c : Conversion) :
    (c.disown p).elapsed = c.elapsed ∧ (c.disown p).wait = c.wait ∧ (c.disown p).capture = c.capture := by
  unfold Conversion.disown
  split <;> exact ⟨rfl, rfl, rfl⟩

/-- The proposal that stays after the end of a voter's session stands as before. -/
theorem Proposal.Stands.without {b : Bool} {pr : Proposal} (h : pr.Stands b) (hother : pr.proposer ≠ p) :
    (pr.without p).Stands b where
  id := h.id
  votes := h.votes
  proposer := by
    refine (get_eraseId pr.accepted p pr.proposer).trans ?_
    simp [h.proposer, hother]
  voters := by
    intro q hq
    have hq' : (pr.accepted[q] && !decide (q = p)) = true := (get_eraseId pr.accepted p q).symm.trans hq
    rw [Bool.and_eq_true] at hq'
    refine (get_eraseId pr.electorate p q).trans ?_
    rw [h.voters q hq'.1, hq'.2]
    rfl
  accepted := by
    unfold Proposal.without
    dsimp only
    split
    case isTrue heq => exact iff_of_true rfl heq
    case isFalse hne => exact iff_of_false (fun hst => hne (by rw [h.accepted.mp hst])) hne
  framesLeft := by
    unfold Proposal.without
    dsimp only
    split
    · exact fun hst => nomatch hst
    · exact h.framesLeft

/-- The proposal that stands after the release: its period and source, and who takes part in it. -/
theorem Steady.proposal_released (h : Steady s) {pr' : Proposal}
    (hpr' : proposalAfterEnd p s.agreement.proposal = some pr') : ∃ pr, s.agreement.proposal = some pr ∧
      pr'.period = pr.period ∧ pr'.source = pr.source ∧ pr'.Stands (responseAfterEnd p s) ∧
      (pr'.proposer ≠ p ∧ Opened s pr'.proposer) ∧
      (∀ q : Port, pr'.electorate[q] = true → q ≠ p ∧ Opened s q) := by
  obtain ⟨pr, hpr, hother, hcases⟩ := mem_proposalAfterEnd hpr'
  have hresponse : responseAfterEnd p s = s.due.agreement := by simp [responseAfterEnd, hpr, hother]
  have hstands := h.stands pr hpr
  have hproposer : pr.proposer ≠ p ∧ Opened s pr.proposer := ⟨hother, h.holders.proposer pr hpr⟩
  rw [hresponse]
  obtain ⟨-, rfl⟩ | ⟨houtside, rfl⟩ := hcases
  · refine ⟨pr, hpr, rfl, rfl, hstands.without hother, hproposer, fun q hq => ?_⟩
    have hq' : (pr.electorate[q] && !decide (q = p)) = true := (get_eraseId pr.electorate p q).symm.trans hq
    rw [Bool.and_eq_true, Bool.not_eq_true', decide_eq_false_iff_not] at hq'
    exact ⟨hq'.2, h.holders.electorate pr hpr q hq'.1⟩
  · refine ⟨pr', hpr, rfl, rfl, hstands, hproposer, fun q hq => ⟨?_, h.holders.electorate pr' hpr q hq⟩⟩
    rintro rfl
    exact Bool.false_ne_true (houtside.symm.trans hq)

theorem withoutPort_holders (h : Steady s) : HoldersOpen (withoutPort k p s) where
  lanes l q hq := by
    obtain ⟨hne, howner⟩ := withoutPort_lane_of_owner hq
    exact withoutPort_opened hne (h.holders.lanes l q howner)
  lines t q hq := by
    obtain ⟨hne, howner⟩ := withoutPort_line_of_owner hq
    exact withoutPort_opened hne (h.holders.lines t q howner)
  informed t q hq := by
    obtain ⟨hne, hinformed⟩ := withoutPort_line_of_informed hq
    exact withoutPort_opened hne (h.holders.informed t q hinformed)
  slots i r hr := by
    obtain ⟨hne, hslot⟩ := withoutPort_slot_of_some hr
    exact withoutPort_opened hne (h.holders.slots i r hslot)
  entries e he := by
    obtain ⟨hin, hport⟩ := List.mem_filter.mp he
    exact withoutPort_opened (of_decide_eq_true hport) (h.holders.entries e hin)
  reports q hq := by
    change (s.groupReport.set p false)[q] = true at hq
    rw [get_set] at hq
    split at hq
    case isTrue => cases hq
    case isFalse hne => exact withoutPort_opened (Ne.symm hne) (h.holders.reports q hq)
  flight c' hc' q hq := by
    obtain ⟨c, hc, rfl⟩ := Option.mem_map.mp hc'
    obtain ⟨hne, howner⟩ := Conversion.disown_owner hq
    exact withoutPort_opened hne (h.holders.flight c hc q howner)
  queue r hr q hq := by
    obtain ⟨hin, hother⟩ := List.mem_filter.mp hr
    refine withoutPort_opened ?_ (h.holders.queue r hin q hq)
    rintro rfl
    exact of_decide_eq_true hother hq
  delivery q hq := by
    change (s.delivery.set p .reset)[q] = .reset
    rw [get_set]
    split
    case isTrue => rfl
    case isFalse hne => exact h.holders.delivery q fun hopen => hq (withoutPort_opened (Ne.symm hne) hopen)
  proposer pr' hpr' := by
    obtain ⟨-, -, -, -, -, ⟨hne, hopen⟩, -⟩ := h.proposal_released hpr'
    exact withoutPort_opened hne hopen
  electorate pr' hpr' q hq := by
    obtain ⟨-, -, -, -, -, -, hvoter⟩ := h.proposal_released hpr'
    obtain ⟨hne, hopen⟩ := hvoter q hq
    exact withoutPort_opened hne hopen
  accepted pr' hpr' q hq := by
    obtain ⟨-, -, -, -, hstands, -, hvoter⟩ := h.proposal_released hpr'
    obtain ⟨hne, hopen⟩ := hvoter q (hstands.voters q hq)
    exact withoutPort_opened hne hopen
  cut m hm := by
    obtain ⟨hin, hport⟩ := List.mem_filter.mp hm
    exact withoutPort_opened (of_decide_eq_true hport) (h.holders.cut m hin)

theorem lineEnded_inForce {t : Line} (h : (lineEnded k s p t).detect.inForce = true) : inForce s t = true := by
  cases hfree : goesFree k s p t with
  | true => rw [lineEnded_of_freed hfree] at h; cases h
  | false => rwa [lineEnded_of_kept hfree] at h

theorem withoutPort_lane_sound (h : Steady s) (l : Lane) :
    (withoutPort k p s).lanes[l].SoundUnder (inForce (withoutPort k p s)) := by
  have hforce (t : Line) (ht : inForce (withoutPort k p s) t = true) : inForce s t = true := by
    rw [inForce, withoutPort_trips] at ht
    exact lineEnded_inForce ht
  rw [withoutPort_lanes]
  split
  case isTrue =>
    cases k with
    | close => exact (LaneRec.soundUnder_of_free rfl).mpr rfl
    | lapse => exact LaneRec.soundUnder_of_orphaned rfl
  case isFalse => exact ((laneSound_iff s l).mp (h.lanes l)).mono hforce

theorem lineSound.reset : lineSound .reset := ⟨fun _ => rfl, fun _ => rfl, fun _ => rfl⟩

theorem lineEnded_sound (h : Steady s) (t : Line) : lineSound (lineEnded k s p t) := by
  cases hfree : goesFree k s p t with
  | true => rw [lineEnded_of_freed hfree]; exact .reset
  | false =>
    obtain ⟨hreset, hcount, hinformed⟩ := h.lines t
    rw [lineEnded_of_kept hfree]
    refine ⟨fun hownership => ?_, hcount, fun hidle => ?_⟩
    · dsimp only at hownership
      split at hownership
      case isTrue => cases hownership
      case isFalse =>
        rw [hreset hownership]
        simp only [TripLine.reset, ← eraseId_eq_set, eraseId_none]
        rfl
    · have hempty : s.trips[t].informed = IdSet.none 4 := hinformed hidle
      rw [hempty, ← eraseId_eq_set, eraseId_none]

theorem withoutPort_fits {period : Nat} (h : FitsPeriod s period) : FitsPeriod (withoutPort k p s) period := by
  refine h.of_subset (fun l hl => ?_) (fun i r hr => ?_) fun e he => ⟨e, List.mem_of_mem_filter he, rfl⟩
  · rw [withoutPort_lanes] at hl ⊢
    split
    case isFalse hother => rw [if_neg hother] at hl; exact ⟨hl, rfl⟩
    case isTrue howner =>
      rw [if_pos howner] at hl
      have hnot : s.lanes[l].status ≠ .free := by
        intro hfree
        rw [hfree] at howner
        cases howner
      cases k with
      | close => exact absurd rfl hl
      | lapse => exact ⟨hnot, rfl⟩
  · exact ⟨r, (withoutPort_slot_of_some hr).2, rfl⟩

/-- A slot's entries stay when its owner does, and go with it. -/
theorem withoutPort_named (h : Steady s) (i : Slot) :
    ((withoutPort k p s).commits.filter (Entry.names i)).length = entriesDue (withoutPort k p s).slots[i] := by
  change ((s.commits.filter fun e => decide (e.port ≠ p)).filter (Entry.names i)).length = _
  rw [List.filter_filter]
  have hport {r : SlotRec} (hslot : s.slots[i] = some r) {e : Entry} (he : e ∈ s.commits) (hi : e.names i = true) :
      e.port = r.owner := by
    obtain ⟨r', hr', howner, -⟩ := h.slot_of_names he hi
    cases Option.mem_unique hslot hr'
    exact howner.symm
  cases hslot : s.slots[i] with
  | none =>
    have hnone := h.named i
    rw [hslot, entriesDue, List.length_eq_zero_iff, List.filter_eq_nil_iff] at hnone
    rw [withoutPort_slots, hslot, List.filter_eq_nil_iff.mpr fun e he => by simp [hnone e he]]
    rfl
  | some r =>
    by_cases hown : r.owner = p
    · rw [withoutPort_slots, hslot, Option.filter_some, if_neg (by simp [hown]), List.filter_eq_nil_iff.mpr ?_]
      · rfl
      · intro e he hboth
        rw [Bool.and_eq_true, decide_eq_true_eq] at hboth
        exact hboth.2 ((hport hslot he hboth.1).trans hown)
    · rw [withoutPort_slot_of_other hslot hown, ← h.named i]
      refine congrArg List.length (List.filter_congr fun e he => ?_)
      cases hi : e.names i with
      | false => rfl
      | true => rw [hport hslot he hi, decide_eq_true hown]; rfl

theorem withoutPort_converter (h : Steady s) : ConverterSound (withoutPort k p s) := by
  have hqueue : (withoutPort k p s).conv.queue = s.conv.queue.filter fun r => decide (r.owner ≠ some p) := rfl
  cases hflight : s.conv.inFlight with
  | none =>
    have hidle : (withoutPort k p s).conv.inFlight = none := congrArg (Option.map (Conversion.disown p)) hflight
    rw [converterSound_of_idle hidle, hqueue, (converterSound_of_idle hflight).mp h.converter]
    rfl
  | some c =>
    have hbusy : (withoutPort k p s).conv.inFlight = some (c.disown p) := congrArg (Option.map (Conversion.disown p)) hflight
    obtain ⟨helapsed, hwait, hcapture⟩ := c.disown_fields (p := p)
    rw [converterSound_of_busy hbusy, helapsed, hwait, hcapture, hqueue]
    obtain ⟨h40, h320, h4095, htime⟩ := (converterSound_of_busy hflight).mp h.converter
    exact ⟨h40, h320, h4095, htime.filter _⟩

theorem withoutPort_response (h : Steady s) (hdue : responseAfterEnd p s = true) :
    (proposalAfterEnd p s.agreement.proposal).isSome = true ∧ s.tb.counter = 0 := by
  obtain ⟨hdue, hother⟩ := Bool.and_eq_true_iff.mp hdue
  obtain ⟨hsome, hzero⟩ := h.response hdue
  obtain ⟨pr, hpr⟩ := Option.isSome_iff_exists.mp hsome
  rw [hpr, Option.all_some, decide_eq_true_eq] at hother
  refine ⟨?_, hzero⟩
  rw [hpr, proposalAfterEnd, if_neg hother]
  split <;> rfl

theorem withoutPort_samples (h : Steady s) (t : Line) (ht : (withoutPort k p s).due.trip[t] = true) :
    (withoutPort k p s).trips[t].ownership ≠ .free := by
  rw [withoutPort_trip_due, Bool.and_eq_true, Bool.not_eq_true'] at ht
  obtain ⟨hdue, hfree⟩ := ht
  rw [withoutPort_trips, lineEnded_of_kept hfree]
  dsimp only
  split
  · exact nofun
  · exact h.samples t hdue

theorem withoutPort_targets (h : Steady s) (e : Entry) (he : e ∈ (withoutPort k p s).commits) :
    targetSound (withoutPort k p s) e := by
  obtain ⟨hin, hport⟩ := List.mem_filter.mp he
  have hother : e.port ≠ p := of_decide_eq_true hport
  refine targetSound_congr (h.targets e hin) (fun l w haction => ?_) fun i hi => ?_
  · have howner := (targetSound_laneSet haction).mp (h.targets e hin)
    rw [withoutPort_lanes, if_neg (by rw [howner]; exact fun heq => hother (Option.some.inj heq))]
  · obtain ⟨r, hr, howner, -⟩ := h.slot_of_names hin hi
    exact withoutPort_slot_of_other hr (by rw [howner]; exact hother)

theorem withoutPort_held (h : Steady s) (e : Entry) (he : e ∈ (withoutPort k p s).commits) (hheld : e.held = true) :
    (withoutPort k p s).sessions[e.port].groupOpen = true ∧ e.released = false := by
  obtain ⟨hin, hport⟩ := List.mem_filter.mp he
  rw [withoutPort_sessions, get_set_of_ne _ _ (of_decide_eq_true hport)]
  exact h.held e hin hheld

theorem withoutPort_delivery (q : Port) :
    (withoutPort k p s).delivery[q] = if p = q then .reset else s.delivery[q] := get_set _ p q _

theorem withoutPort_fits_delivery (h : Steady s) (q : Port) : (withoutPort k p s).delivery[q].Fits := by
  rw [withoutPort_delivery]
  split
  · exact .reset
  · exact h.delivery q

theorem withoutPort_sessions_sound (h : Steady s) (hend : (s.sessions[p].ended k).sound (atBoundary s) = true)
    (q : Port) : (withoutPort k p s).sessions[q].sound (atBoundary s) = true := by
  rw [withoutPort_sessions, get_set]
  split
  · exact hend
  · exact h.sessions q

theorem withoutPort_proposal :
    (withoutPort k p s).agreement.proposal = proposalAfterEnd p s.agreement.proposal := rfl

theorem atBoundary_withoutPort : atBoundary (withoutPort k p s) = atBoundary s := by
  dsimp only [atBoundary, withoutPort, purge]

theorem withoutPort_sessions_kept (h : Steady s) (hend : (s.sessions[p].ended k).sound (atBoundary s) = true)
    (q : Port) : (withoutPort k p s).sessions[q].sound (atBoundary (withoutPort k p s)) = true := by
  rw [atBoundary_withoutPort]
  exact withoutPort_sessions_sound h hend q

theorem withoutPort_lines_sound (h : Steady s) (t : Line) : lineSound (withoutPort k p s).trips[t] := by
  rw [withoutPort_trips]
  exact lineEnded_sound h t

/-- Everything released at a session end leaves a steady state. -/
theorem withoutPort_steady (h : Steady s) (hend : (s.sessions[p].ended k).sound (atBoundary s) = true) :
    Steady (withoutPort k p s) := by
  obtain ⟨hlist, hshare⟩ := h.list_of_sublist (List.filter_sublist (p := fun e => decide (e.port ≠ p)))
  constructor
  case delivery => exact withoutPort_fits_delivery h
  case queue => exact (List.length_filter_le _ _).trans h.queue
  case list => exact hlist
  case share => exact hshare
  case rx => exact h.rx
  case stamp => exact h.stamp
  case tb => exact h.tb
  case sync => exact h.sync
  case grace => exact h.grace
  case allowed =>
    intro pr' hpr'
    obtain ⟨pr, hpr, hperiod, hsource, -⟩ := h.proposal_released hpr'
    rw [Proposal.Allowed, hperiod, hsource]
    exact h.allowed pr hpr
  case response => exact withoutPort_response h
  case sessions => exact withoutPort_sessions_kept h hend
  case holders => exact withoutPort_holders h
  case lanes => exact fun l => (laneSound_iff _ l).mpr (withoutPort_lane_sound h l)
  case lines => exact withoutPort_lines_sound h
  case samples => exact withoutPort_samples h
  case targets => exact withoutPort_targets h
  case named => exact withoutPort_named h
  case held => exact withoutPort_held h
  case fits => exact withoutPort_fits h.fits
  case fitsProposed =>
    intro pr' hpr'
    obtain ⟨pr, hpr, hperiod, -⟩ := h.proposal_released hpr'
    rw [hperiod]
    exact withoutPort_fits (h.fitsProposed pr hpr)
  case nextId => exact h.nextId
  case running =>
    intro pr' hpr'
    obtain ⟨pr, hpr, -⟩ := h.proposal_released hpr'
    exact h.running pr hpr
  case stands =>
    intro pr' hpr'
    obtain ⟨-, -, -, -, hstands, -⟩ := h.proposal_released hpr'
    exact hstands
  case converter => exact withoutPort_converter h

end Released

theorem endSession_steady {k : EndKind} {p : Port} {s : State} (h : Steady s)
    (hend : (s.sessions[p].ended k).sound (atBoundary s) = true) : Steady (endSession k p s) :=
  (endSession_tells k p s).steady (withoutPort_steady h hend)

theorem takeLapse_steady {s : State} (h : Steady s) (p : Port) : Steady (takeLapse p s) := by
  unfold takeLapse
  split
  case isFalse => exact h
  case isTrue hdue =>
    have hended := endSession_steady h (Session.sound_lapse (h.sessions p) hdue)
    exact releaseLocked_steady ((emitAll_tells _ _).steady hended)

end Sys2Proof.Machine
end

section
/-! SUPPORT. Lapses that are due: which happenings leave them as they are, and what a lapse does to them (spec/03 R44,
R45). -/

namespace Sys2Proof.Machine

/-- No port's lapse is due. -/
def NoLapse (s : State) : Prop := ∀ p : Port, s.sessions[p].lapses = false

theorem NoLapse.of_sessions {s t : State} (h : NoLapse s) (hsame : t.sessions = s.sessions) : NoLapse t := by
  intro p
  rw [hsame]
  exact h p

theorem endSession_sessions (k : EndKind) (p : Port) (s : State) :
    (endSession k p s).sessions = s.sessions.set p (s.sessions[p].ended k) := by
  obtain ⟨ag, du, d, h⟩ := endSession_frame k p s
  rw [h]
  rfl

theorem takeLocked_sessions (s : State) : (takeLocked s).sessions = s.sessions := by
  obtain ⟨d, h⟩ := takeLocked_frame s
  rw [h]

theorem releaseLocked_sessions (s : State) : (releaseLocked s).sessions = s.sessions := by
  obtain ⟨-, h⟩ | ⟨-, h⟩ := releaseLocked_cases s
  · rw [h]
  · rw [h, takeLocked_sessions]

theorem takeLapse_sessions (p : Port) (s : State) :
    (takeLapse p s).sessions =
      if s.sessions[p].lapses then s.sessions.set p (s.sessions[p].ended .lapse) else s.sessions := by
  unfold takeLapse
  change (if s.sessions[p].lapses then _ else _ : State).sessions = _
  split
  · rw [releaseLocked_sessions, lapsePort, emitAll_sessions, endSession_sessions]
  · rfl

/-- A lapse ends the session whose lapse was due, and no other. -/
theorem takeLapse_lapses (p q : Port) (s : State) :
    (takeLapse p s).sessions[q].lapses = (s.sessions[q].lapses && decide (q ≠ p)) := by
  rw [takeLapse_sessions]
  by_cases hq : q = p
  · subst hq
    have hself : decide (q ≠ q) = false := by simp
    rw [hself, Bool.and_false]
    split
    case isTrue => rw [get_set_self]; rfl
    case isFalse h => exact Bool.eq_false_iff.mpr h
  · rw [decide_eq_true hq, Bool.and_true]
    split
    · rw [get_set_of_ne _ _ hq]
    · rfl

theorem takeCommits_sessions (s : State) : (takeCommits s).sessions = s.sessions := by
  unfold takeCommits
  split
  · obtain ⟨es, la, sl, c, tr, d, h⟩ := applyCommits_frame s
    rw [h]
  · rfl

theorem takeAgreement_sessions (s : State) : (takeAgreement s).sessions = s.sessions := by
  obtain ⟨tb, sy, ag, du, d, h⟩ := takeAgreement_frame s
  rw [h]

theorem takeResume_sessions (s : State) : (takeResume s).sessions = s.sessions := by
  obtain ⟨la, d, h⟩ := takeResume_frame s
  rw [h]

theorem takeResponses_noLapse (s : State) : NoLapse (takeResponses s) := by
  intro p
  rw [takeResponses, takeResume_sessions, takeLapse_lapses, takeLapse_lapses, takeLapse_lapses, takeLapse_lapses]
  fin_cases p <;> simp

theorem finishBoundary_noLapse (s : State) : NoLapse (finishBoundary s) := takeResponses_noLapse _

theorem takeResponses_steady {s : State} (h : Steady s) : Steady (takeResponses s) :=
  takeResume_steady <| takeLapse_steady (takeLapse_steady (takeLapse_steady (takeLapse_steady
    (takeAgreement_steady (takeCommits_steady h)) 0) 1) 2) 3

theorem finishBoundary_steady {s : State} (h : Steady s) : Steady (finishBoundary s) :=
  takeResponses_steady (takeSchedule_steady (takeLocked_steady h))

end Sys2Proof.Machine
end

section
/-! SUPPORT. What a tick leaves of the tick before it: with all that is owed taken, the counters may advance (spec/01 R5,
spec/02 R29, spec/07 R109). -/

namespace Sys2Proof.Machine

/-- A steady state in which neither the grace nor a conversion has run out: while the grace is open the counter is below
W, and a conversion in flight is below its 40 ticks (R29, R109). -/
structure InTick (s : State) : Prop where
  steady : Steady s
  grace : s.sync.grace = true → s.tb.counter < s.tb.window
  early : ∀ c ∈ s.conv.inFlight, c.elapsed < 40

/-! ### Where it begins -/

theorem takeGrace_grace {s : State} (h : Steady s) (hgrace : (takeGrace s).sync.grace = true) :
    (takeGrace s).tb.counter < (takeGrace s).tb.window := by
  unfold takeGrace at hgrace ⊢
  split at hgrace
  case isTrue =>
    unfold graceRunsOut at hgrace
    dsimp only at hgrace
    split at hgrace <;> cases hgrace
  case isFalse hnot =>
    rw [if_neg hnot]
    obtain ⟨hstate, hle⟩ := h.grace hgrace
    refine Nat.lt_of_le_of_ne hle fun heq => hnot ?_
    simp [graceExpires, hstate, hgrace, heq]

theorem afterHead_early (s : State) (queue : List ConvRequest) :
    ∀ c ∈ (Converter.afterHead s queue).inFlight, c.elapsed < 40 := by
  unfold Converter.afterHead
  split
  · exact fun _ hc => nomatch hc
  · intro c hc
    cases hc
    exact Nat.zero_lt_succ _

theorem takeCompletion_early (s : State) : ∀ c ∈ (takeCompletion s).conv.inFlight, c.elapsed < 40 := by
  intro c' hc'
  cases hflight : s.conv.inFlight with
  | none =>
    rw [takeCompletion_of_idle hflight, hflight] at hc'
    cases hc'
  | some c =>
    by_cases hcomplete : 40 ≤ c.elapsed
    · rw [takeCompletion_of_complete hflight hcomplete, finishConversion_eq] at hc'
      obtain ⟨d, hd⟩ := deliverAll_frame (s.conv.queue.takeWhile (ConvRequest.stale s.tickStamp)) (.missed .stale)
        { deliverFor c.request (.ok c.capture c.wait) s with conv := Converter.afterHead s s.conv.queue }
      rw [hd] at hc'
      exact afterHead_early s _ c' hc'
    · rw [takeCompletion_of_early hflight (Nat.lt_of_not_le hcomplete), hflight] at hc'
      cases hc'
      exact Nat.lt_of_not_le hcomplete

/-- Once the grace and the completion are taken, neither has run out. -/
theorem InTick.begin {s : State} (h : Steady s) : InTick (takeCompletion (takeGrace s)) := by
  obtain ⟨c, d, hframe⟩ := takeCompletion_frame (takeGrace s)
  refine ⟨takeCompletion_steady (takeGrace_steady h), ?_, takeCompletion_early _⟩
  rw [hframe]
  exact takeGrace_grace h

/-! ### What keeps it -/

theorem InTick.of_same {s t : State} (h : InTick s) (hsteady : Steady t) (htb : t.tb = s.tb) (hsync : t.sync = s.sync)
    (hconv : t.conv = s.conv) : InTick t :=
  ⟨hsteady, by rw [htb, hsync]; exact h.grace, by rw [hconv]; exact h.early⟩

/-- Where the counter is at 0 the grace has not run out. -/
theorem InTick.of_zero {s t : State} (h : InTick s) (hsteady : Steady t) (hzero : t.tb.counter = 0)
    (hconv : t.conv = s.conv) : InTick t := by
  refine ⟨hsteady, fun _ => ?_, by rw [hconv]; exact h.early⟩
  have hwindow := hsteady.tb.window
  omega

theorem takeTrigger_early {s : State} (h : ∀ c ∈ s.conv.inFlight, c.elapsed < 40) (r : ConvRequest) :
    ∀ c ∈ (takeTrigger r s).conv.inFlight, c.elapsed < 40 := by
  unfold takeTrigger
  split
  case isTrue =>
    dsimp only
    split
    case h_1 =>
      obtain ⟨d, hd⟩ := takeHead_frame { s with conv := { s.conv with queue := s.conv.queue ++ [r] } }
      rw [hd]
      exact afterHead_early _ _
    case h_2 => exact h
  case isFalse =>
    obtain ⟨d, hd⟩ := deliverFor_frame r (.missed .queueFull) s
    rw [hd]
    exact h

theorem fireSlot_early (i : Slot) {s : State} (h : ∀ c ∈ s.conv.inFlight, c.elapsed < 40) :
    ∀ c ∈ (fireSlot i s).conv.inFlight, c.elapsed < 40 := by
  unfold fireSlot
  split
  case h_1 => exact h
  case h_2 r _ =>
    obtain ⟨sl, es, hempty⟩ := emptyOnce_frame i r
      (takeTrigger (triggerOf s i r) { s with slots := s.slots.set i (some { r with lastFired := some s.tb.seq }) })
    rw [hempty]
    exact takeTrigger_early (s := { s with slots := s.slots.set i (some { r with lastFired := some s.tb.seq }) }) h _

theorem fireAmong_early (test : State → Slot → Bool) {s : State} (h : ∀ c ∈ s.conv.inFlight, c.elapsed < 40) :
    ∀ c ∈ (fireAmong test s).conv.inFlight, c.elapsed < 40 :=
  fireAmong_keeps (P := fun s => ∀ c ∈ s.conv.inFlight, c.elapsed < 40) (fun i _ h _ => fireSlot_early i h) test h

theorem fireDue_inTick {s : State} (h : InTick s) : InTick (fireDue s) := by
  obtain ⟨d, hcut⟩ := handCut_frame s
  have hearly : ∀ c ∈ (fireDue s).conv.inFlight, c.elapsed < 40 := by
    unfold fireDue
    exact fireAmong_early _ (by rw [hcut]; exact h.early)
  obtain ⟨sl, es, c, d, hframe⟩ := fireDue_frame s
  refine ⟨fireDue_steady h.steady, ?_, hearly⟩
  rw [hframe]
  exact h.grace

theorem takeCommits_inTick {s : State} (h : InTick s) : InTick (takeCommits s) := by
  have hsteady := takeCommits_steady h.steady
  unfold takeCommits at hsteady ⊢
  split at hsteady
  case isFalse hnot => rwa [if_neg hnot]
  case isTrue hdue =>
    rw [if_pos hdue]
    have hearly : ∀ c ∈ (applyCommits s).conv.inFlight, c.elapsed < 40 := by
      unfold applyCommits
      rw [reportGroups_conv]
      obtain ⟨la, sl, tr, d, hes⟩ := applyEntries_frame (s.commits.filter fun e => !e.held)
        { s with commits := s.commits.filter fun e => e.held, due := { s.due with commit := false } }
      exact fireAmong_early _ (by rw [hes]; exact h.early)
    obtain ⟨es, la, sl, c, tr, d, hframe⟩ := applyCommits_frame s
    refine ⟨hsteady, ?_, hearly⟩
    rw [hframe]
    exact h.grace

/-- The agreement unit's response moves the timebase and the monitor with the counter at 0 only. -/
theorem takeAgreement_tb {s : State} (h : Steady s) :
    ((takeAgreement s).tb = s.tb ∧ (takeAgreement s).sync = s.sync) ∨ (takeAgreement s).tb.counter = 0 := by
  by_cases hdue : s.due.agreement = true
  · refine .inr ?_
    obtain ⟨-, hzero⟩ := h.response hdue
    have hcommit : (takeProposalCommit s).tb.counter = 0 := by
      unfold takeProposalCommit
      split
      · split
        · obtain ⟨hcounter, -⟩ := Timebase.commit_fields s.tb _ _
          exact hcounter.trans hzero
        · exact hzero
      · exact hzero
    obtain ⟨ag, du, d, hframe⟩ := takeProposalExpiry_frame (takeProposalCommit s)
    rw [takeAgreement, hframe]
    exact hcommit
  · rw [takeAgreement_of_not_due s (Bool.eq_false_iff.mpr hdue)]
    exact .inl ⟨rfl, rfl⟩

theorem takeAgreement_inTick {s : State} (h : InTick s) : InTick (takeAgreement s) := by
  have hsteady := takeAgreement_steady h.steady
  have hconv : (takeAgreement s).conv = s.conv := by
    obtain ⟨tb, sy, ag, du, d, hframe⟩ := takeAgreement_frame s
    rw [hframe]
  obtain ⟨htb, hsync⟩ | hzero := takeAgreement_tb h.steady
  · exact h.of_same hsteady htb hsync hconv
  · exact h.of_zero hsteady hzero hconv

theorem takeLocked_inTick {s : State} (h : InTick s) : InTick (takeLocked s) := by
  obtain ⟨d, hframe⟩ := takeLocked_frame s
  exact h.of_same (takeLocked_steady h.steady) (by rw [hframe]) (by rw [hframe]) (by rw [hframe])

theorem releaseLocked_inTick {s : State} (h : InTick s) : InTick (releaseLocked s) := by
  unfold releaseLocked
  split
  · exact h
  · exact takeLocked_inTick h

theorem takeLapse_inTick {s : State} (h : InTick s) (p : Port) : InTick (takeLapse p s) := by
  unfold takeLapse
  split
  case isFalse => exact h
  case isTrue hdue =>
    refine releaseLocked_inTick ?_
    have hended := endSession_steady h.steady (Session.sound_lapse (h.steady.sessions p) hdue)
    obtain ⟨ag, du, d, hframe⟩ := lapsePort_frame p s
    refine ⟨(emitAll_tells _ _).steady hended, ?_, ?_⟩
    · rw [hframe]
      exact h.grace
    · rw [hframe]
      intro c' hc'
      obtain ⟨c, hc, rfl⟩ := Option.mem_map.mp hc'
      obtain ⟨helapsed, -⟩ := c.disown_fields (p := p)
      rw [helapsed]
      exact h.early c hc

theorem takeResume_inTick {s : State} (h : InTick s) : InTick (takeResume s) := by
  obtain ⟨la, d, hframe⟩ := takeResume_frame s
  exact h.of_same (takeResume_steady h.steady) (by rw [hframe]) (by rw [hframe]) (by rw [hframe])

/-- A sample's judgement writes lanes, lines, the delivery records and the sample's own mark. -/
theorem takeSample_frame (t : Line) (s : State) : ∃ la tr d du, takeSample t s =
    { s with lanes := la, trips := tr, delivery := d, due := { s.due with trip := du } } := by
  unfold takeSample
  split
  case isFalse => exact ⟨_, _, _, _, rfl⟩
  case isTrue =>
    unfold moveLine
    split
    · exact ⟨_, _, _, _, rfl⟩
    · exact ⟨_, _, _, _, rfl⟩
    · unfold deassertLine recoverLanes
      dsimp only
      split
      · exact ⟨_, _, _, _, rfl⟩
      · exact ⟨_, _, _, _, rfl⟩

theorem takeSample_inTick {s : State} (h : InTick s) (t : Line) : InTick (takeSample t s) := by
  obtain ⟨la, tr, d, du, hframe⟩ := takeSample_frame t s
  exact h.of_same (takeSample_steady h.steady t) (by rw [hframe]) (by rw [hframe]) (by rw [hframe])

theorem makeBoundary_inTick (k : BoundaryKind) {s : State} (h : InTick s) (hlapse : NoLapse s) :
    InTick (makeBoundary k s) :=
  h.of_zero (makeBoundary_steady k h.steady hlapse) rfl rfl

theorem takeWrap_conv (s : State) : (takeWrap s).conv = s.conv := by
  unfold takeWrap
  split <;> rfl

theorem acceptLock_conv (s : State) : (acceptLock s).conv = s.conv := by
  have hrelease (u : State) : (releaseLocked u).conv = u.conv := by
    obtain ⟨d, h⟩ := takeLocked_frame u
    obtain ⟨-, hr⟩ | ⟨-, hr⟩ := releaseLocked_cases u
    · rw [hr]
    · rw [hr, h]
  unfold acceptLock
  dsimp only
  split
  · exact hrelease _
  · obtain ⟨d, h⟩ := takeLocked_frame
      { s with
        tb := { s.tb with state := .locked }
        sync := { s.sync.measure (acquirePhase s.tb.counter s.tb.period) with lockedOnce := true }
        due := { s.due with locked := some (!s.sync.lockedOnce) } }
    rw [h]

theorem acceptLock_grace (s : State) : (acceptLock s).sync.grace = false := by
  have hlocked (u : State) : (takeLocked u).sync = u.sync := by
    obtain ⟨d, h⟩ := takeLocked_frame u
    rw [h]
  have hrelease (u : State) : (releaseLocked u).sync = u.sync := by
    obtain ⟨-, hr⟩ | ⟨-, hr⟩ := releaseLocked_cases u
    · rw [hr]
    · rw [hr, hlocked]
  unfold acceptLock
  dsimp only
  split
  · rw [hrelease]; rfl
  · rw [hlocked]; rfl

theorem judgeLocked_cases (s : State) :
    (judgeLocked s).conv = s.conv ∧ ((judgeLocked s).sync.grace = false ∨ judgeLocked s = s) := by
  unfold judgeLocked
  split
  · split
    · split
      · exact ⟨rfl, .inl rfl⟩
      · exact ⟨rfl, .inl rfl⟩
    · exact ⟨rfl, .inr rfl⟩
  · split
    · exact ⟨rfl, .inl rfl⟩
    · exact ⟨rfl, .inr rfl⟩

/-- An edge leaves the converter alone, and closes the grace or does nothing. -/
theorem judgeEdge_cases (s : State) :
    (judgeEdge s).conv = s.conv ∧ ((judgeEdge s).sync.grace = false ∨ judgeEdge s = s) := by
  unfold judgeEdge
  split
  · exact ⟨rfl, .inr rfl⟩
  · exact ⟨rfl, .inr rfl⟩
  · exact ⟨acceptLock_conv s, .inl (acceptLock_grace s)⟩
  · exact judgeLocked_cases s
  · exact ⟨acceptLock_conv s, .inl (acceptLock_grace s)⟩

theorem takeWrap_inTick {s : State} (h : InTick s) : InTick (takeWrap s) := by
  unfold takeWrap
  split
  case isTrue hdue =>
    have hwrap : s.due.wrap = true := Bool.and_elim_left hdue
    exact makeBoundary_inTick .wrap h (h.steady.no_lapse (by simp [atBoundary, hwrap]))
  case isFalse => exact h

theorem takeEdge_inTick {s : State} (h : InTick s) : InTick (takeEdge s) := by
  have hsteady := takeEdge_steady h.steady
  unfold takeEdge at hsteady ⊢
  split at hsteady
  case isFalse hnot => rwa [if_neg hnot]
  case isTrue hdue =>
    rw [if_pos hdue]
    have hwrap := takeWrap_inTick h
    unfold edgeTaken at hsteady ⊢
    dsimp only at hsteady ⊢
    obtain ⟨hconv, hgrace⟩ := judgeEdge_cases { takeWrap s with due := { (takeWrap s).due with edge := false } }
    refine ⟨hsteady, fun hopen => ?_, by rw [hconv]; exact hwrap.early⟩
    obtain hclosed | hsame := hgrace
    · exact absurd (hclosed.symm.trans hopen) nofun
    · rw [hsame] at hopen ⊢
      exact hwrap.grace hopen

end Sys2Proof.Machine
end

section
/-! SUPPORT. A tick keeps a state steady: all that is owed is taken, then the counters advance (spec/01 R1, R2, R5). -/

namespace Sys2Proof.Machine

/-! ### All that is owed -/

/-- No response of the agreement unit is due, and it stays so. -/
theorem takeAgreement_answered {s : State} (h : Steady s) : (takeAgreement s).due.agreement = false := by
  by_cases hdue : s.due.agreement = true
  · obtain ⟨hsome, -⟩ := h.response hdue
    obtain ⟨pr, hpr⟩ := Option.isSome_iff_exists.mp hsome
    cases hstate : pr.state with
    | accepted =>
      have hanswered : (takeProposalCommit s).due.agreement = false := by
        simp only [takeProposalCommit, hdue, hpr, hstate]
        rfl
      simp only [takeAgreement, takeProposalExpiry, hanswered]
    | opened =>
      have hsame : takeProposalCommit s = s := by simp only [takeProposalCommit, hdue, hpr, hstate]
      rw [takeAgreement, hsame]
      simp only [takeProposalExpiry, hdue, hpr, hstate]
      split <;> rfl
  · rw [takeAgreement_of_not_due s (Bool.eq_false_iff.mpr hdue)]
    exact Bool.eq_false_iff.mpr hdue

theorem releaseLocked_due_agreement (s : State) : (releaseLocked s).due.agreement = s.due.agreement := by
  obtain ⟨d, h⟩ := takeLocked_frame s
  obtain ⟨-, hr⟩ | ⟨-, hr⟩ := releaseLocked_cases s
  · rw [hr]
  · rw [hr, h]

theorem takeLapse_answered {s : State} (h : s.due.agreement = false) (p : Port) :
    (takeLapse p s).due.agreement = false := by
  unfold takeLapse
  split
  case isFalse => exact h
  case isTrue =>
    rw [releaseLocked_due_agreement, lapsePort, emitAll_due]
    obtain ⟨d, hd, -⟩ := endSession_tells .lapse p s
    rw [hd]
    simp [withoutPort, responseAfterEnd, h]

theorem takeResume_answered {s : State} (h : s.due.agreement = false) : (takeResume s).due.agreement = false := by
  obtain ⟨la, d, hframe⟩ := takeResume_frame s
  rw [hframe]
  exact h

theorem takeResponses_answered {s : State} (h : Steady s) : (takeResponses s).due.agreement = false :=
  takeResume_answered <| takeLapse_answered (takeLapse_answered (takeLapse_answered (takeLapse_answered
    (takeAgreement_answered (takeCommits_steady h)) 0) 1) 2) 3

theorem takeResponses_inTick {s : State} (h : InTick s) : InTick (takeResponses s) :=
  takeResume_inTick <| takeLapse_inTick (takeLapse_inTick (takeLapse_inTick (takeLapse_inTick
    (takeAgreement_inTick (takeCommits_inTick h)) 0) 1) 2) 3

/-- The counters of a state may advance: neither the grace nor a conversion has run out, no response of the agreement unit
and no lapse is due. -/
structure Settled (s : State) : Prop where
  inTick : InTick s
  answered : s.due.agreement = false
  noLapse : NoLapse s

theorem takeSample_settled {s : State} (h : Settled s) (t : Line) : Settled (takeSample t s) := by
  obtain ⟨la, tr, d, du, hframe⟩ := takeSample_frame t s
  exact ⟨takeSample_inTick h.inTick t, by rw [hframe]; exact h.answered, h.noLapse.of_sessions (by rw [hframe])⟩

theorem takeResponses_settled {s : State} (h : InTick s) : Settled (takeResponses s) :=
  ⟨takeResponses_inTick h, takeResponses_answered h.steady, takeResponses_noLapse s⟩

theorem settle_settled {s : State} (h : Steady s) : Settled (settle s) :=
  takeSample_settled (takeSample_settled (takeSample_settled (takeSample_settled
    (takeResponses_settled (fireDue_inTick (takeLocked_inTick (takeEdge_inTick
      (InTick.begin (fireDue_steady (takeWrap_steady h))))))) 0) 1) 2) 3

/-! ### The counters advance -/

theorem Timebase.tick_eq (tb : Timebase) : tb.tick =
    { tb with counter := if tb.state.running && decide (tb.counter + 1 < tb.period) then tb.counter + 1
                         else tb.counter } := by
  unfold Timebase.tick
  split <;> rfl

theorem Timebase.InRange.tick {tb : Timebase} (h : tb.InRange) : tb.tick.InRange := by
  rw [Timebase.tick_eq]
  refine { h with counter := ?_ }
  dsimp only
  split
  case isTrue hnext =>
    obtain ⟨-, hlt⟩ := Bool.and_eq_true_iff.mp hnext
    exact of_decide_eq_true hlt
  case isFalse => exact h.counter

theorem SyncMonitor.tick_eq (active : Bool) (m : SyncMonitor) : m.tick active =
    { m with intervalCounter :=
        if active then m.intervalCounter.map fun n => min Config.intervalMax (n + 1) else m.intervalCounter } := by
  unfold SyncMonitor.tick
  split <;> rfl

theorem SyncMonitor.InRange.tick {m : SyncMonitor} (h : m.InRange) (active : Bool) : (m.tick active).InRange := by
  rw [SyncMonitor.tick_eq]
  refine { h with intervalCounter := ?_ }
  dsimp only
  split
  case isTrue =>
    intro n' hn'
    obtain ⟨n, -, rfl⟩ := Option.mem_map.mp hn'
    exact Nat.min_le_left _ _
  case isFalse => exact h.intervalCounter

theorem Ownership.not_free_of_monitored {o : Ownership} (h : o.monitored = true) : o ≠ .free := by
  rintro rfl
  cases h

theorem advance_inFlight (levels : TickPins) (s : State) : (advance levels s).conv.inFlight =
    s.conv.inFlight.map fun c => { c with elapsed := c.elapsed + 1 } := rfl

/-- The conversion's elapsed time and the requests' ages advance together. -/
theorem advance_converter {s : State} (h : InTick s) (levels : TickPins) : ConverterSound (advance levels s) := by
  have hstamp := h.steady.stamp
  cases hflight : s.conv.inFlight with
  | none =>
    have hidle : (advance levels s).conv.inFlight = none := by
      rw [advance_inFlight, hflight]
      rfl
    exact (converterSound_of_idle hidle).mpr ((converterSound_of_idle hflight).mp h.steady.converter)
  | some c =>
    have hbusy : (advance levels s).conv.inFlight = some { c with elapsed := c.elapsed + 1 } := by
      rw [advance_inFlight, hflight]
      rfl
    obtain ⟨-, hwait, hcapture, htime⟩ := (converterSound_of_busy hflight).mp h.steady.converter
    exact (converterSound_of_busy hbusy).mpr ⟨h.early c hflight, hwait, hcapture, htime.tick hstamp⟩

theorem advance_holders {s : State} (h : HoldersOpen s) (levels : TickPins) : HoldersOpen (advance levels s) :=
  { h with
    flight := by
      intro c' hc'
      obtain ⟨c, hc, rfl⟩ := Option.mem_map.mp hc'
      exact h.flight c hc }

/-- The counter after a tick, while the grace is open, has at most reached W. -/
theorem advance_grace {s : State} (h : InTick s) (levels : TickPins)
    (hgrace : (advance levels s).sync.grace = true) :
    (advance levels s).tb.state = .locked ∧ (advance levels s).tb.counter ≤ (advance levels s).tb.window := by
  have hopen : s.sync.grace = true := by
    have hsync : (advance levels s).sync = s.sync.tick s.tb.state.monitored := rfl
    rwa [hsync, SyncMonitor.tick_eq] at hgrace
  obtain ⟨hstate, -⟩ := h.steady.grace hopen
  have hbelow := h.grace hopen
  have htb : (advance levels s).tb = s.tb.tick := rfl
  rw [htb, Timebase.tick_eq]
  refine ⟨hstate, ?_⟩
  dsimp only
  split <;> omega

theorem advance_steady {s : State} (h : Settled s) (levels : TickPins) : Steady (advance levels s) := by
  have hs := h.inTick.steady
  have hperiod : (advance levels s).tb.period = s.tb.period := by
    change s.tb.tick.period = _
    rw [Timebase.tick_eq]
  exact { hs with
    stamp := Nat.mod_lt _ (by decide)
    tb := hs.tb.tick
    sync := hs.sync.tick _
    grace := advance_grace h.inTick levels
    response := fun hdue => absurd (h.answered.symm.trans hdue) nofun
    sessions := fun p => Session.sound_of_below (hs.sessions p) (h.noLapse p) _
    holders := advance_holders hs.holders levels
    samples := by
      intro t ht
      have hmonitored : s.trips[t].ownership.monitored = true := (get_setOf _ t).symm.trans ht
      exact Ownership.not_free_of_monitored hmonitored
    fits := by
      rw [hperiod]
      exact hs.fits
    running := by
      intro pr hpr
      change s.tb.tick.state.running = true
      rw [Timebase.tick_eq]
      exact hs.running pr hpr
    converter := advance_converter h.inTick levels }

end Sys2Proof.Machine
end

section
/-! SUPPORT. What every request does: its port is heard, and its transaction ends (spec/03 R37, R38, spec/11 R168). -/

namespace Sys2Proof.Machine

variable {s : State} {p : Port}

theorem Session.hear_eq (r : Session) :
    r.hear = { r with silenceCount := if r.state = .opened then some 0 else r.silenceCount } := by
  obtain ⟨st, limit, count, threshold, group⟩ := r
  cases st <;> rfl

theorem Session.sound_hear {r : Session} {b : Bool} (h : r.sound b = true) : r.hear.sound b = true := by
  by_cases hopen : r.state = .opened
  · obtain ⟨limit, count, threshold, hlimit, -, hthreshold, hl, ht, -⟩ := (Session.sound_opened_iff hopen b).mp h
    rw [Session.hear_eq, if_pos hopen]
    exact (Session.sound_opened_iff (r := { r with silenceCount := some 0 }) hopen b).mpr
      ⟨limit, 0, threshold, hlimit, rfl, hthreshold, hl, ht, .inl (by omega)⟩
  · rwa [Session.hear_eq, if_neg hopen]

theorem hear_sessions (p : Port) (s : State) : (hear p s).sessions = s.sessions.set p s.sessions[p].hear := rfl

theorem hear_sessions_state (p q : Port) (s : State) : (hear p s).sessions[q].state = s.sessions[q].state := by
  rw [hear_sessions, get_set]
  split
  case isTrue h => subst h; rw [Session.hear_eq]
  case isFalse => rfl

theorem hear_sessions_groupOpen (p q : Port) (s : State) :
    (hear p s).sessions[q].groupOpen = s.sessions[q].groupOpen := by
  rw [hear_sessions, get_set]
  split
  case isTrue h => subst h; rw [Session.hear_eq]
  case isFalse => rfl

/-- Sessions may change where they stay sound and OPEN, with the group as it was. -/
theorem Steady.with_sessions (h : Steady s) {sessions : Vector Session 4}
    (hsound : ∀ q : Port, sessions[q].sound (atBoundary s) = true)
    (hopen : ∀ q : Port, s.sessions[q].state = .opened → sessions[q].state = .opened)
    (hgroup : ∀ e ∈ s.commits, e.held = true → sessions[e.port].groupOpen = true) :
    Steady { s with sessions := sessions } :=
  { h with
    sessions := hsound
    holders := h.holders.with_sessions hopen
    held := fun e he hheld => ⟨hgroup e he hheld, (h.held e he hheld).2⟩ }

theorem hear_steady (h : Steady s) (p : Port) : Steady (hear p s) := by
  refine h.with_sessions
    (forall_get_set (P := fun _ (r : Session) => r.sound (atBoundary s) = true) ?_ fun q _ => h.sessions q)
    (fun q hq => (hear_sessions_state p q s).trans hq) fun e he hheld => ?_
  · exact Session.sound_hear (h.sessions p)
  · have hgroup := hear_sessions_groupOpen p e.port s
    exact hgroup.trans (h.held e he hheld).1

/-- A port heard has no lapse due, and the other ports' lapses are due as before. -/
theorem hear_noLapse (h : Steady s) (hlapse : NoLapse s) (p : Port) : NoLapse (hear p s) := by
  intro q
  rw [hear_sessions, get_set]
  split
  case isFalse => exact hlapse q
  case isTrue =>
    by_cases hopen : s.sessions[p].state = .opened
    · obtain ⟨limit, count, threshold, hlimit, -, -, hl, -⟩ := (Session.sound_opened_iff hopen _).mp (h.sessions p)
      rw [Session.hear_eq, if_pos hopen]
      refine Bool.eq_false_iff.mpr fun hdue => ?_
      have hreached := (Session.lapses_iff (r := { s.sessions[p] with silenceCount := some 0 }) hopen hlimit rfl).mp hdue
      omega
    · rw [Session.hear_eq, if_neg hopen]
      exact hlapse p

theorem hold_steady (h : Steady s) (p : Port) (r : Response) : Steady (hold p r s) :=
  { h with
    holders := { h.holders with }
    rx := by
      intro q
      change (s.links.set p { s.links[p].ended with held := r })[q].rx.length ≤ 28
      rw [get_set]
      split
      · exact Nat.zero_le _
      · exact h.rx q }

/-- A command keeps a state steady in which its port's session is OPEN. -/
theorem inSession_steady (h : Steady s) {cmd : Command} (hcmd : Opened s p → Steady (cmd s).1) :
    Steady (inSession p cmd s).1 := by
  obtain ⟨-, heq⟩ | ⟨hopen, heq⟩ | ⟨-, heq⟩ := inSession_cases p cmd s
  · rw [heq]; exact h
  · rw [heq]; exact hcmd hopen
  · rw [heq]; exact h

/-! ### Sessions -/

theorem cmdSessionOpen_steady (h : Steady s) (p : Port) (limit threshold : Nat) :
    Steady (cmdSessionOpen p limit threshold s).1 := by
  unfold cmdSessionOpen
  split
  case isFalse => exact h
  case isTrue hrange =>
    split
    case isTrue => exact h
    case isFalse hclosed =>
      have hnot : ¬ Opened s p := mt isOpen_iff.mpr hclosed
      refine h.with_sessions
        (forall_get_set (P := fun _ (r : Session) => r.sound (atBoundary s) = true) ?_ fun q _ => h.sessions q)
        (fun q hq => ?_) fun e he hheld => ?_
      · exact (Session.sound_opened_iff rfl _).mpr
          ⟨limit, 0, threshold, rfl, rfl, rfl, ⟨hrange.1, hrange.2.1⟩, hrange.2.2, .inl (by omega)⟩
      · rw [get_set]
        split
        · rfl
        · exact hq
      · have hother : e.port ≠ p := fun heq => hnot (heq ▸ h.holders.entries e he)
        rw [get_set_of_ne _ _ hother]
        exact (h.held e he hheld).1

theorem cmdSessionClose_steady (h : Steady s) (p : Port) : Steady (cmdSessionClose p s).1 :=
  inSession_steady h fun _ => endSession_steady h (Session.sound_close _ _)

/-! ### Edit groups -/

theorem setGroup_steady (h : Steady s) {b : Bool} (hopen : Opened s p)
    (hgroup : ∀ e ∈ s.commits, e.held = true → e.port = p → b = true) : Steady (setGroup p b s) := by
  refine h.with_sessions
    (forall_get_set (P := fun _ (r : Session) => r.sound (atBoundary s) = true) ?_ fun q _ => h.sessions q)
    (fun q hq => ?_) fun e he hheld => ?_
  · have hsound := h.sessions p
    rw [Session.sound_opened_iff hopen] at hsound
    rw [Session.sound_opened_iff (r := { s.sessions[p] with groupOpen := b }) hopen]
    exact hsound
  · rw [get_update]
    split
    case isTrue => exact hopen
    case isFalse => exact hq
  · rw [get_update]
    split
    case isTrue hp => exact hgroup e he hheld hp.symm
    case isFalse => exact (h.held e he hheld).1

theorem cmdGroupBegin_steady (h : Steady s) (p : Port) : Steady (cmdGroupBegin p s).1 := by
  refine inSession_steady h fun hopen => ?_
  split
  · exact h
  · exact setGroup_steady h hopen fun _ _ _ _ => rfl

theorem Entry.release_eq (p : Port) (e : Entry) : e.release p =
    { e with held := e.held && !e.heldBy p, released := e.released || e.heldBy p } := by
  unfold Entry.release
  obtain ⟨port, action, held, released⟩ := e
  cases hheld : Entry.heldBy p ⟨port, action, held, released⟩ <;> simp

theorem releaseGroup_steady (h : Steady s) (hopen : Opened s p) : Steady (releaseGroup p s) := by
  have hkeep (e' : Entry) (he' : e' ∈ s.commits.map (Entry.release p)) :
      ∃ e ∈ s.commits, e'.port = e.port ∧ e'.action = e.action ∧
        (e'.held = true → e.held = true ∧ e.port ≠ p ∧ e'.released = e.released) := by
    obtain ⟨e, he, rfl⟩ := List.mem_map.mp he'
    refine ⟨e, he, by rw [Entry.release_eq], by rw [Entry.release_eq], fun hheld => ?_⟩
    rw [Entry.release_eq] at hheld ⊢
    obtain ⟨hheld, hnot⟩ := Bool.and_eq_true_iff.mp hheld
    have hnot : e.heldBy p = false := (Bool.not_eq_true' _).mp hnot
    refine ⟨hheld, fun heq => ?_, by simp [hnot]⟩
    simp [Entry.heldBy, heq, hheld] at hnot
  have hfits {period : Nat} (hf : FitsPeriod s period) : FitsPeriod
      { s with commits := s.commits.map (Entry.release p), groupReport := s.groupReport.set p true } period := by
    refine hf.of_subset (fun l hl => ⟨hl, rfl⟩) (fun i r hr => ⟨r, hr, rfl⟩) fun e' he' => ?_
    obtain ⟨e, he, -, haction, -⟩ := hkeep e' he'
    exact ⟨e, he, haction.symm⟩
  have hfilter (f : Entry → Bool) (hf : ∀ e, f (e.release p) = f e) :
      ((s.commits.map (Entry.release p)).filter f).length = (s.commits.filter f).length := by
    rw [List.filter_map, List.length_map]
    exact congrArg List.length (List.filter_congr fun e _ => hf e)
  have hmapped : Steady { s with
      commits := s.commits.map (Entry.release p), groupReport := s.groupReport.set p true } :=
    { h with
      list := by rw [List.length_map]; exact h.list
      share := fun q => by
        rw [hfilter _ fun e => by rw [Entry.release_eq]]
        exact h.share q
      holders := { h.holders with
        entries := by
          intro e' he'
          obtain ⟨e, he, hport, -⟩ := hkeep e' he'
          rw [hport]
          exact h.holders.entries e he
        reports := by
          intro q hq
          rw [get_set] at hq
          split at hq
          case isTrue heq => exact heq ▸ hopen
          case isFalse => exact h.holders.reports q hq }
      targets := by
        intro e' he'
        obtain ⟨e, he, hport, haction, -⟩ := hkeep e' he'
        have htarget := h.targets e he
        unfold targetSound at htarget ⊢
        rw [hport, haction]
        exact htarget
      named := fun i => by
        rw [hfilter _ fun e => by rw [Entry.release_eq]; rfl]
        exact h.named i
      held := by
        intro e' he' hheld
        obtain ⟨e, he, hport, -, hrest⟩ := hkeep e' he'
        obtain ⟨hheld, -, hreleased⟩ := hrest hheld
        have hgroup := h.held e he hheld
        simpa only [hport, hreleased] using hgroup
      fits := hfits h.fits
      fitsProposed := fun pr hpr => hfits (h.fitsProposed pr hpr) }
  refine setGroup_steady hmapped hopen fun e' he' hheld hport => ?_
  obtain ⟨e, -, hsame, -, hrest⟩ := hkeep e' he'
  obtain ⟨-, hother, -⟩ := hrest hheld
  exact absurd (hsame.symm.trans hport) hother

theorem cmdGroupEnd_steady (h : Steady s) (p : Port) : Steady (cmdGroupEnd p s).1 := by
  refine inSession_steady h fun hopen => ?_
  split
  · exact releaseGroup_steady h hopen
  · exact h

/-! ### The cancel of a group -/

/-- A slot named by a held entry of p: the entry goes, and the slot is EMPTY or LIVE again. -/
theorem cancelledSlot_of_named {i : Slot} {e : Entry} (he : e ∈ s.commits) (hheld : e.heldBy p = true)
    (hi : e.names i = true) : entriesDue (cancelledSlot s p i) = 0 := by
  have hin : e ∈ heldEntries s p := List.mem_filter.mpr ⟨he, hheld⟩
  unfold cancelledSlot
  split
  case isTrue => rfl
  case isFalse hadds =>
    have hremoves : (heldEntries s p).any fun e => e.removes i := by
      refine List.any_eq_true.mpr ⟨e, hin, ?_⟩
      obtain hadd | hremove := Bool.or_eq_true_iff.mp hi
      · exact absurd (List.any_eq_true.mpr ⟨e, hin, hadd⟩) hadds
      · exact hremove
    rw [if_pos hremoves]
    cases s.slots[i] <;> rfl

theorem cancelledSlot_of_unnamed {i : Slot} (hnone : ∀ e ∈ s.commits, e.heldBy p = true → e.names i = false) :
    cancelledSlot s p i = s.slots[i] := by
  have hnot {e : Entry} (he : e ∈ heldEntries s p) : e.adds i = false ∧ e.removes i = false := by
    obtain ⟨hin, hheld⟩ := List.mem_filter.mp he
    exact Bool.or_eq_false_iff.mp (hnone e hin hheld)
  unfold cancelledSlot
  rw [if_neg, if_neg]
  · rw [List.any_eq_true]
    rintro ⟨e, he, hremoves⟩
    exact Bool.false_ne_true ((hnot he).2.symm.trans hremoves)
  · rw [List.any_eq_true]
    rintro ⟨e, he, hadds⟩
    exact Bool.false_ne_true ((hnot he).1.symm.trans hadds)

theorem cancelledSlot_some {i : Slot} {r : SlotRec} (h : cancelledSlot s p i = some r) :
    ∃ r', s.slots[i] = some r' ∧ r'.owner = r.owner ∧ r'.offset = r.offset := by
  unfold cancelledSlot at h
  split at h
  case isTrue => cases h
  case isFalse =>
    split at h
    case isTrue =>
      obtain ⟨r', hr', rfl⟩ := Option.map_eq_some_iff.mp h
      exact ⟨r', hr', rfl, rfl⟩
    case isFalse => exact ⟨r, h, rfl, rfl⟩

/-- An entry that the cancel keeps: no held entry of p names its slot. -/
theorem Steady.unnamed_of_kept (h : Steady s) {e : Entry} (he : e ∈ s.commits) (hkept : e.heldBy p = false) {i : Slot}
    (hi : e.names i = true) : ∀ e' ∈ s.commits, e'.heldBy p = true → e'.names i = false := by
  intro e' he' hheld
  refine Bool.eq_false_iff.mpr fun hi' => ?_
  rw [h.named_once he he' hi hi', hheld] at hkept
  cases hkept

theorem cancel_named (h : Steady s) (i : Slot) :
    ((s.commits.filter fun e => !e.heldBy p).filter (Entry.names i)).length = entriesDue (cancelledSlot s p i) := by
  by_cases hnamed : ∃ e ∈ s.commits, e.heldBy p = true ∧ e.names i = true
  · obtain ⟨e, he, hheld, hi⟩ := hnamed
    rw [cancelledSlot_of_named he hheld hi, List.length_eq_zero_iff, List.filter_eq_nil_iff]
    intro e' he' hi'
    obtain ⟨hin, hkept⟩ := List.mem_filter.mp he'
    rw [h.named_once he hin hi hi'] at hheld
    exact Bool.false_ne_true (((Bool.not_eq_true' _).mp hkept).symm.trans hheld)
  · have hnone : ∀ e ∈ s.commits, e.heldBy p = true → e.names i = false := fun e he hheld =>
      Bool.eq_false_iff.mpr fun hi => hnamed ⟨e, he, hheld, hi⟩
    rw [cancelledSlot_of_unnamed hnone, ← h.named i, List.filter_filter]
    refine congrArg List.length (List.filter_congr fun e he => ?_)
    cases hi : e.names i with
    | false => rfl
    | true =>
      have hkept : e.heldBy p = false := Bool.eq_false_iff.mpr fun hheld => by
        rw [hnone e he hheld] at hi
        cases hi
      rw [hkept]
      rfl

theorem cancelGroup_steady (h : Steady s) (hopen : Opened s p) : Steady (cancelGroup p s) := by
  obtain ⟨hlist, hshare⟩ := h.list_of_sublist (List.filter_sublist (p := fun e => !e.heldBy p))
  have hslot (i : Slot) : (tabulate fun i => cancelledSlot s p i)[i] = cancelledSlot s p i := get_tabulate _ i
  have hfits {period : Nat} (hf : FitsPeriod s period) : FitsPeriod
      { s with commits := s.commits.filter fun e => !e.heldBy p, slots := tabulate fun i => cancelledSlot s p i }
      period := by
    refine hf.of_subset (fun l hl => ⟨hl, rfl⟩) (fun i r hr => ?_) fun e he => ⟨e, List.mem_of_mem_filter he, rfl⟩
    obtain ⟨r', hr', -, hoffset⟩ := cancelledSlot_some ((hslot i).symm.trans hr)
    exact ⟨r', hr', hoffset⟩
  have hcancelled : Steady { s with
      commits := s.commits.filter fun e => !e.heldBy p, slots := tabulate fun i => cancelledSlot s p i } :=
    { h with
      list := hlist
      share := hshare
      holders := { h.holders with
        slots := by
          intro i r hr
          obtain ⟨r', hr', howner, -⟩ := cancelledSlot_some ((hslot i).symm.trans hr)
          rw [← howner]
          exact h.holders.slots i r' hr'
        entries := fun e he => h.holders.entries e (List.mem_of_mem_filter he) }
      targets := by
        intro e he
        obtain ⟨hin, hkept⟩ := List.mem_filter.mp he
        refine targetSound_congr (h.targets e hin) (fun _ _ _ => rfl) fun i hi => (hslot i).trans ?_
        exact cancelledSlot_of_unnamed (h.unnamed_of_kept hin ((Bool.not_eq_true' _).mp hkept) hi)
      named := fun i => (cancel_named h i).trans (congrArg entriesDue (hslot i).symm)
      held := fun e he => h.held e (List.mem_of_mem_filter he)
      fits := hfits h.fits
      fitsProposed := fun pr hpr => hfits (h.fitsProposed pr hpr) }
  refine setGroup_steady hcancelled hopen fun e he hheld hport => ?_
  obtain ⟨-, hkept⟩ := List.mem_filter.mp he
  simp [Entry.heldBy, hport, hheld] at hkept

theorem cmdGroupCancel_steady (h : Steady s) (p : Port) : Steady (cmdGroupCancel p s).1 := by
  refine inSession_steady h fun hopen => ?_
  split
  · exact cancelGroup_steady h hopen
  · exact h

/-! ### Reading the queues -/

/-- A port's own records may be taken out of its queues. -/
theorem Steady.with_delivery (h : Steady s) (hopen : Opened s p) {f : Delivery → Delivery}
    (hfits : s.delivery[p].Fits → (f s.delivery[p]).Fits) :
    Steady { s with delivery := update s.delivery p f } :=
  { h with
    delivery := forall_get_set (P := fun _ (d : Delivery) => d.Fits) (hfits (h.delivery p)) fun q _ => h.delivery q
    holders := { h.holders with
      delivery := by
        intro q hq
        rw [get_update, if_neg]
        · exact h.holders.delivery q hq
        · rintro rfl
          exact hq hopen } }

theorem cmdReadResults_steady (h : Steady s) (p : Port) (max : Nat) : Steady (cmdReadResults p max s).1 := by
  refine inSession_steady h fun hopen => ?_
  split
  case isFalse => exact h
  case isTrue =>
    refine h.with_delivery hopen fun ⟨hresults, hevents, hlostResults, hlostEvents⟩ =>
      ⟨?_, hevents, hlostResults, hlostEvents⟩
    rw [List.length_drop]
    omega

theorem cmdReadEvents_steady (h : Steady s) (p : Port) (max : Nat) : Steady (cmdReadEvents p max s).1 := by
  refine inSession_steady h fun hopen => ?_
  split
  case isFalse => exact h
  case isTrue =>
    refine h.with_delivery hopen fun ⟨hresults, hevents, hlostResults, hlostEvents⟩ =>
      ⟨hresults, ?_, hlostResults, hlostEvents⟩
    rw [List.length_drop]
    omega

end Sys2Proof.Machine
end

section
/-! SUPPORT. The commands on lanes, slots and their entries keep a state steady (spec/04 R55 to R63, spec/05 R71, spec/06
R86 to R90). -/

namespace Sys2Proof.Machine

variable {s : State} {p : Port}

/-! ### The periods that everything standing fits -/

/-- The period in force, or the one that the proposal names (R62). -/
def PeriodStands (s : State) (period : Nat) : Prop :=
  period = s.tb.period ∨ ∃ pr ∈ s.agreement.proposal, pr.period = period

theorem Steady.fits_of_stands (h : Steady s) {period : Nat} (hp : PeriodStands s period) : FitsPeriod s period := by
  obtain rfl | ⟨pr, hpr, rfl⟩ := hp
  · exact h.fits
  · exact h.fitsProposed pr hpr

theorem Steady.period_ge (h : Steady s) {period : Nat} (hp : PeriodStands s period) : 64 ≤ period := by
  obtain rfl | ⟨pr, hpr, rfl⟩ := hp
  · exact h.tb.period.1
  · exact (h.allowed pr hpr).1.1

theorem fitsBoth_iff {f : Nat → Bool} : fitsBoth s f = true ↔ ∀ period, PeriodStands s period → f period = true := by
  unfold fitsBoth PeriodStands
  cases s.agreement.proposal <;> simp

/-- What is said of every period that stands is said of the one in force and of a proposed one. -/
theorem forall_stands {P : Nat → Prop} (h : ∀ period, PeriodStands s period → P period) :
    P s.tb.period ∧ ∀ pr ∈ s.agreement.proposal, P pr.period :=
  ⟨h _ (.inl rfl), fun pr hpr => h _ (.inr ⟨pr, hpr, rfl⟩)⟩

/-! ### One lane written -/

/-- One lane may be written when it is sound again, fits, and the LANE_SET entries for it are its owner's. -/
theorem Steady.with_lane (h : Steady s) {l : Lane} {r : LaneRec} (hsound : r.SoundUnder (inForce s))
    (howner : ∀ q : Port, r.status.owner? = some q → Opened s q)
    (hentries : ∀ e ∈ s.commits, ∀ w, e.action = .laneSet l w → r.status.owner? = some e.port)
    (hfits : ∀ period, PeriodStands s period → r.status ≠ .free →
      r.settings.onAt < period ∧ r.settings.length ≤ period) : Steady { s with lanes := s.lanes.set l r } := by
  have hstill (period : Nat) (hp : PeriodStands s period) : FitsPeriod { s with lanes := s.lanes.set l r } period := by
    obtain ⟨hlanes, hslots, hcommits⟩ := h.fits_of_stands hp
    exact ⟨forall_get_set (P := fun _ (r : LaneRec) => r.status ≠ .free →
      r.settings.onAt < period ∧ r.settings.length ≤ period) (hfits period hp) fun m _ => hlanes m, hslots, hcommits⟩
  exact { h with
    holders := { h.holders with
      lanes := forall_get_set (P := fun _ (r : LaneRec) => ∀ q : Port, r.status.owner? = some q → Opened s q) howner
        fun m _ => h.holders.lanes m }
    lanes := forall_get_set (P := fun _ (r : LaneRec) => r.SoundUnder (inForce s)) hsound
      fun m _ => (laneSound_iff s m).mp (h.lanes m)
    targets := by
      intro e he
      cases haction : e.action with
      | laneSet m w =>
        rw [targetSound_laneSet haction]
        by_cases hm : m = l
        · subst hm
          exact (congrArg (fun r : LaneRec => r.status.owner?) (get_set_self s.lanes m r)).trans
            (hentries e he w haction)
        · exact (congrArg (fun r : LaneRec => r.status.owner?) (get_set_of_ne s.lanes r hm)).trans
            ((targetSound_laneSet haction).mp (h.targets e he))
      | sampleAdd i =>
        exact (targetSound_add haction).mpr ((targetSound_add (s := s) haction).mp (h.targets e he))
      | sampleRemove i =>
        exact (targetSound_remove haction).mpr ((targetSound_remove (s := s) haction).mp (h.targets e he))
    fits := (forall_stands hstill).1
    fitsProposed := (forall_stands hstill).2 }

/-- A lane without an owner has no LANE_SET entry. -/
theorem Steady.no_laneSet (h : Steady s) {l : Lane} (hfree : s.lanes[l].status.owner? = none) {e : Entry}
    (he : e ∈ s.commits) {w : LaneSettings} : e.action ≠ .laneSet l w := by
  intro haction
  have howner := (targetSound_laneSet haction).mp (h.targets e he)
  rw [hfree] at howner
  cases howner

theorem anyInForce_eq_false {mask : LineSet} (h : anyInForce s mask ≠ true) (t : Line) (ht : mask[t] = true) :
    inForce s t = false := by
  refine Bool.eq_false_iff.mpr fun hforce => h ?_
  exact (someId_eq_true _).mpr ⟨t, Bool.and_eq_true_iff.mpr ⟨ht, hforce⟩⟩

theorem adoptedStatus_owner (s : State) (p : Port) (mask : LineSet) :
    (adoptedStatus s p mask).owner? = some p := by
  unfold adoptedStatus
  split <;> rfl

/-- A lane adopted with its mask is sound: TRIPPED by the lines in force, LEASED without one. -/
theorem adoptedStatus_sound (p : Port) (w : LaneSettings) :
    LaneRec.SoundUnder (inForce s) { status := adoptedStatus s p w.tripMask, settings := { w with length := 0 } } := by
  unfold adoptedStatus
  split
  case isTrue =>
    refine (LaneRec.soundUnder_of_tripped rfl).mpr fun t => ⟨fun ht => ?_, fun hmask hforce => ⟨?_, rfl⟩⟩
    · rw [maskInForce, get_setOf, Bool.and_eq_true] at ht
      exact ht.1
    · rw [maskInForce, get_setOf, hforce, Bool.and_true]
      exact hmask
  case isFalse hnone => exact (LaneRec.soundUnder_of_leased rfl).mpr (anyInForce_eq_false hnone)

theorem leaseLane_steady (h : Steady s) (hopen : Opened s p) (l : Lane) : Steady (leaseLane p l s).1 := by
  have howned (q : Port) (hq : some p = some q) : Opened s q := Option.some.inj hq ▸ hopen
  cases hst : s.lanes[l].status with
  | free =>
    rw [leaseLane_of_free hst]
    refine h.with_lane ?_ howned ?_ ?_
    · refine (LaneRec.soundUnder_of_leased rfl).mpr fun t ht => ?_
      rw [LaneSettings.fresh, get_noneId] at ht
      cases ht
    · exact fun e he w haction => absurd haction (h.no_laneSet (by rw [hst]; rfl) he)
    · intro period hp _
      have := h.period_ge hp
      exact ⟨Nat.lt_of_lt_of_le (Nat.zero_lt_succ 63) this, Nat.zero_le _⟩
  | orphaned =>
    rw [leaseLane_of_orphaned hst]
    refine h.with_lane (adoptedStatus_sound p _) ?_ ?_ ?_
    · intro q hq
      rw [adoptedStatus_owner] at hq
      exact howned q hq
    · exact fun e he w haction => absurd haction (h.no_laneSet (by rw [hst]; rfl) he)
    · intro period hp _
      obtain ⟨hlanes, -⟩ := h.fits_of_stands hp
      obtain ⟨hon, -⟩ := hlanes l (by rw [hst]; exact nofun)
      exact ⟨hon, Nat.zero_le _⟩
  | leased q =>
    rw [leaseLane_of_owner (q := q) (by rw [hst]; rfl)]
    split <;> exact h
  | tripped q cause rearm =>
    rw [leaseLane_of_owner (q := q) (by rw [hst]; rfl)]
    split <;> exact h

theorem cmdLaneLease_steady (h : Steady s) (p : Port) (lane : Nat) : Steady (cmdLaneLease p lane s).1 := by
  refine inSession_steady h fun hopen => ?_
  split
  · exact h
  · exact leaseLane_steady h hopen _

/-! ### A lane released -/

/-- Entries that name no slot may go. -/
theorem Steady.drop_entries (h : Steady s) {keep : Entry → Bool}
    (hnames : ∀ e ∈ s.commits, keep e = false → ∀ i : Slot, e.names i = false) :
    Steady { s with commits := s.commits.filter keep } := by
  obtain ⟨hlist, hshare⟩ := h.list_of_sublist (List.filter_sublist (p := keep))
  have hstill {period : Nat} (hf : FitsPeriod s period) :
      FitsPeriod { s with commits := s.commits.filter keep } period :=
    hf.of_subset (fun l hl => ⟨hl, rfl⟩) (fun i r hr => ⟨r, hr, rfl⟩) fun e he => ⟨e, List.mem_of_mem_filter he, rfl⟩
  exact { h with
    list := hlist
    share := hshare
    holders := { h.holders with entries := fun e he => h.holders.entries e (List.mem_of_mem_filter he) }
    targets := fun e he =>
      targetSound_congr (h.targets e (List.mem_of_mem_filter he)) (fun _ _ _ => rfl) fun _ _ => rfl
    named := by
      intro i
      rw [List.filter_filter]
      refine (congrArg List.length (List.filter_congr fun e he => ?_)).trans (h.named i)
      cases hkeep : keep e with
      | true => rw [Bool.and_true]
      | false => rw [hnames e he hkeep i]; rfl
    held := fun e he => h.held e (List.mem_of_mem_filter he)
    fits := hstill h.fits
    fitsProposed := fun pr hpr => hstill (h.fitsProposed pr hpr) }

theorem Entry.targetsLane_iff {l : Lane} {e : Entry} : e.targetsLane l = true ↔ ∃ w, e.action = .laneSet l w := by
  unfold Entry.targetsLane
  cases e.action with
  | laneSet m w => simp
  | sampleAdd i => simp
  | sampleRemove i => simp

theorem Entry.not_names_of_laneSet {e : Entry} {l : Lane} {w : LaneSettings} (h : e.action = .laneSet l w) (i : Slot) :
    e.names i = false := by
  refine Bool.eq_false_iff.mpr fun hi => ?_
  obtain hadd | hremove := Entry.names_iff.mp hi
  · rw [h] at hadd; cases hadd
  · rw [h] at hremove; cases hremove

theorem releaseLane_steady (h : Steady s) {l : Lane} (howner : ownsLane s p l = true) : Steady (releaseLane p l s) := by
  have howner : s.lanes[l].status.owner? = some p := of_decide_eq_true howner
  have hdropped := h.drop_entries (keep := fun e => !(decide (e.port = p) && e.targetsLane l)) fun e he hgone i => by
    have hboth : (decide (e.port = p) && e.targetsLane l) = true := by simpa using hgone
    obtain ⟨-, htarget⟩ := Bool.and_eq_true_iff.mp hboth
    obtain ⟨w, hw⟩ := Entry.targetsLane_iff.mp htarget
    exact Entry.not_names_of_laneSet hw i
  refine hdropped.with_lane (l := l) ((LaneRec.soundUnder_of_free rfl).mpr rfl) (fun q hq => nomatch hq) ?_
    fun _ _ hfree => absurd rfl hfree
  intro e he w haction
  obtain ⟨hin, hkept⟩ := List.mem_filter.mp he
  have hport : e.port = p := by
    have hsame := (targetSound_laneSet haction).mp (h.targets e hin)
    exact Option.some.inj (hsame.symm.trans howner)
  have htarget : e.targetsLane l = true := Entry.targetsLane_iff.mpr ⟨w, haction⟩
  simp [hport, htarget] at hkept

theorem cmdLaneRelease_steady (h : Steady s) (p : Port) (lane : Nat) : Steady (cmdLaneRelease p lane s).1 := by
  refine inSession_steady h fun _ => ?_
  split
  · exact h
  · split
    · exact releaseLane_steady h ‹_›
    · exact h

/-! ### The append of an entry -/

theorem room_of_capacity (h : capacityRefusal s p = none) : s.commits.length < 24 ∧ entriesOf s p < 12 := by
  unfold capacityRefusal at h
  split at h
  case isTrue => cases h
  case isFalse hroom =>
    split at h
    case isTrue => cases h
    case isFalse hshare => exact ⟨Nat.lt_of_not_le hroom, Nat.lt_of_not_le hshare⟩

/-- An entry may join the tail, together with a slot written, when it finds its target and the slot it names, if any, had
no entry and has one now. -/
theorem Steady.with_entry (h : Steady s) (hopen : Opened s p) (hroom : capacityRefusal s p = none) {a : EntryAction}
    {slots : Vector (Option SlotRec) 32} {e : Entry}
    (hentry : e = { port := p, action := a, held := s.sessions[p].groupOpen, released := false })
    (htarget : targetSound { s with slots := slots, commits := s.commits ++ [e] } e)
    (hkept : ∀ i : Slot, e.names i = false → slots[i] = s.slots[i])
    (hnew : ∀ i : Slot, e.names i = true → entriesDue s.slots[i] = 0 ∧ entriesDue slots[i] = 1)
    (howners : ∀ i : Slot, ∀ r ∈ slots[i], Opened s r.owner)
    (hfits : ∀ period, PeriodStands s period → (∀ i : Slot, ∀ r ∈ slots[i], r.offset < period) ∧
      ∀ l w, a = .laneSet l w → w.onAt < period ∧ w.length ≤ period) :
    Steady { s with slots := slots, commits := s.commits ++ [e] } := by
  obtain ⟨hlist, hshare⟩ := room_of_capacity hroom
  have hport : e.port = p := by rw [hentry]
  have hstill (period : Nat) (hp : PeriodStands s period) :
      FitsPeriod { s with slots := slots, commits := s.commits ++ [e] } period := by
    obtain ⟨hlanes, -, hcommits⟩ := h.fits_of_stands hp
    obtain ⟨hslots, hset⟩ := hfits period hp
    refine ⟨hlanes, hslots, fun e' he' => ?_⟩
    obtain hold | hlast := List.mem_append.mp he'
    · exact hcommits e' hold
    · rw [List.mem_singleton.mp hlast, hentry]
      cases ha : a with
      | laneSet l w => exact hset l w ha
      | sampleAdd i => trivial
      | sampleRemove i => trivial
  exact { h with
    list := by rw [List.length_append, List.length_singleton]; exact hlist
    share := by
      intro q
      rw [List.filter_append, List.length_append]
      by_cases hq : p = q
      · subst hq
        have hlast : ([e].filter fun e => decide (e.port = p)).length ≤ 1 := List.length_filter_le _ _
        unfold entriesOf at hshare
        omega
      · have hlast : [e].filter (fun e => decide (e.port = q)) = [] := by simp [hport, hq]
        rw [hlast, List.length_nil, Nat.add_zero]
        exact h.share q
    holders := { h.holders with
      slots := howners
      entries := by
        intro e' he'
        obtain hold | hlast := List.mem_append.mp he'
        · exact h.holders.entries e' hold
        · rw [List.mem_singleton.mp hlast, hport]
          exact hopen }
    targets := by
      intro e' he'
      obtain hold | hlast := List.mem_append.mp he'
      · refine targetSound_congr (h.targets e' hold) (fun _ _ _ => rfl) fun i hi => hkept i ?_
        refine Bool.eq_false_iff.mpr fun hnames => ?_
        obtain ⟨hnone, -⟩ := hnew i hnames
        rw [← h.named i, List.length_eq_zero_iff, List.filter_eq_nil_iff] at hnone
        exact hnone e' hold hi
      · rw [List.mem_singleton.mp hlast]
        exact htarget
    named := by
      intro i
      rw [List.filter_append, List.length_append]
      cases hnames : e.names i with
      | false =>
        have hlast : [e].filter (Entry.names i) = [] := by simp [hnames]
        rw [hlast, List.length_nil, Nat.add_zero]
        exact (h.named i).trans (congrArg entriesDue (hkept i hnames).symm)
      | true =>
        obtain ⟨hnone, hone⟩ := hnew i hnames
        have hlast : [e].filter (Entry.names i) = [e] := by simp [hnames]
        rw [hlast, List.length_singleton, h.named i, hnone]
        exact hone.symm
    held := by
      intro e' he' hheld
      obtain hold | hlast := List.mem_append.mp he'
      · exact h.held e' hold hheld
      · rw [List.mem_singleton] at hlast
        subst hlast
        rw [hentry] at hheld ⊢
        exact ⟨hheld, rfl⟩
    fits := (forall_stands hstill).1
    fitsProposed := (forall_stands hstill).2 }

theorem stageSettings_steady (h : Steady s) (hopen : Opened s p) (l : Lane) (w : LaneSettings) :
    Steady (stageSettings p l w s).1 := by
  unfold stageSettings
  split
  case isTrue => exact h
  case isFalse howner =>
    split
    case isTrue => exact h
    case isFalse hfits =>
      split
      case h_1 => exact h
      case h_2 hroom =>
        have hnames (i : Slot) : Entry.names i
            { port := p, action := .laneSet l w, held := s.sessions[p].groupOpen, released := false } = false :=
          Entry.not_names_of_laneSet rfl i
        have howner : ownsLane s p l = true := by simpa using howner
        have hfits : fitsBoth s w.fits = true := by simpa using hfits
        refine h.with_entry (a := .laneSet l w) hopen hroom rfl ?_ (fun _ _ => rfl) (fun i hi => ?_) h.holders.slots
          fun period hp => ⟨?_, ?_⟩
        · exact (targetSound_laneSet rfl).mpr (of_decide_eq_true howner)
        · rw [hnames i] at hi
          cases hi
        · obtain ⟨-, hslots, -⟩ := h.fits_of_stands hp
          exact hslots
        · rintro l' w' hw
          cases hw
          have := fitsBoth_iff.mp hfits period hp
          simpa [LaneSettings.fits] using this

theorem cmdLaneSet_steady (h : Steady s) (p : Port) (lane onAt length active safe mask : Nat) :
    Steady (cmdLaneSet p lane onAt length active safe mask s).1 := by
  refine inSession_steady h fun hopen => ?_
  split
  · exact stageSettings_steady h hopen _ _
  · exact h

/-! ### Slots -/

theorem emptySlot?_some {i : Slot} (h : emptySlot? s = some i) : s.slots[i] = none := by
  have := List.find?_some h
  simpa using this

/-- An entry names the slot that its action names, and no other. -/
theorem Entry.names_of_action {e : Entry} {i j : Slot} (h : e.action = .sampleAdd i ∨ e.action = .sampleRemove i)
    (hj : e.names j = true) : j = i := Entry.names_unique hj (Entry.names_iff.mpr h)

theorem stageSlot_steady (h : Steady s) (hopen : Opened s p) {r : SlotRec} (hstaged : r.state = .staged)
    (howner : r.owner = p) : Steady (stageSlot p r s).1 := by
  unfold stageSlot
  split
  case h_1 => exact h
  case h_2 i hempty =>
    have hempty := emptySlot?_some hempty
    split
    case isTrue => exact h
    case isFalse hfits =>
      split
      case h_1 => exact h
      case h_2 hroom =>
        have hfits : fitsBoth s (fun period => decide (r.offset + 1 ≤ period)) = true := by simpa using hfits
        have hself : (s.slots.set i (some r))[i] = some r := get_set_self _ _ _
        refine h.with_entry (a := .sampleAdd i) hopen hroom rfl ?_ (fun j hj => ?_) (fun j hj => ?_) ?_
          fun period hp => ⟨?_, fun l w hw => nomatch hw⟩
        · exact (targetSound_add rfl).mpr ⟨r, hself, hstaged, howner⟩
        · refine get_set_of_ne _ _ ?_
          rintro rfl
          rw [Entry.names_iff.mpr (.inl rfl)] at hj
          cases hj
        · obtain rfl := Entry.names_of_action (.inl rfl) hj
          rw [hempty, hself]
          exact ⟨rfl, by rw [entriesDue, hstaged]⟩
        · exact forall_get_set (P := fun _ (o : Option SlotRec) => ∀ r ∈ o, Opened s r.owner)
            (by rintro r' ⟨⟩; rw [howner]; exact hopen) fun j _ => h.holders.slots j
        · obtain ⟨-, hslots, -⟩ := h.fits_of_stands hp
          have hnew := of_decide_eq_true (fitsBoth_iff.mp hfits period hp)
          exact forall_get_set (P := fun _ (o : Option SlotRec) => ∀ r ∈ o, r.offset < period)
            (by rintro r' ⟨⟩; exact hnew) fun j _ => hslots j

theorem cmdSampleAdd_steady (h : Steady s) (p : Port) (offset channel mode divisor phase maxWait tag : Nat) :
    Steady (cmdSampleAdd p offset channel mode divisor phase maxWait tag s).1 := by
  refine inSession_steady h fun hopen => ?_
  split
  · exact stageSlot_steady h hopen rfl rfl
  · exact h

/-- A LIVE slot becomes RETIRING and its SAMPLE_REMOVE joins the tail. -/
theorem retire_steady (h : Steady s) (hopen : Opened s p) {i : Slot} {r : SlotRec} (hslot : s.slots[i] = some r)
    (howner : r.owner = p) (hlive : r.state = .live) (hroom : capacityRefusal s p = none) :
    Steady (append p (.sampleRemove i) { s with slots := s.slots.set i (some { r with state := .retiring }) }) := by
  have hself : (s.slots.set i (some { r with state := .retiring }))[i] = some { r with state := .retiring } :=
    get_set_self _ _ _
  refine h.with_entry (a := .sampleRemove i) hopen hroom rfl ?_ (fun j hj => ?_) (fun j hj => ?_) ?_
    fun period hp => ⟨?_, fun l w hw => nomatch hw⟩
  · exact (targetSound_remove rfl).mpr ⟨_, hself, rfl, howner⟩
  · refine get_set_of_ne _ _ ?_
    rintro rfl
    rw [Entry.names_iff.mpr (.inr rfl)] at hj
    cases hj
  · obtain rfl := Entry.names_of_action (.inr rfl) hj
    rw [hslot, hself]
    exact ⟨by rw [entriesDue, hlive], rfl⟩
  · exact forall_get_set (P := fun _ (o : Option SlotRec) => ∀ r ∈ o, Opened s r.owner)
      (by rintro r' ⟨⟩; exact h.holders.slots i r hslot) fun j _ => h.holders.slots j
  · obtain ⟨-, hslots, -⟩ := h.fits_of_stands hp
    exact forall_get_set (P := fun _ (o : Option SlotRec) => ∀ r ∈ o, r.offset < period)
      (by rintro r' ⟨⟩; exact hslots i r hslot) fun j _ => hslots j

theorem removeSlot_steady (h : Steady s) (hopen : Opened s p) {i : Slot} {r : SlotRec} (hslot : s.slots[i] = some r)
    (howner : r.owner = p) : Steady (removeSlot p i r s).1 := by
  cases hstate : r.state with
  | staged =>
    rw [removeSlot_of_staged hstate]
    refine h.clear_slot i fun e he => ?_
    rw [decide_not]
    refine congrArg (!·) ?_
    change e.adds i = e.names i
    cases hnames : e.names i with
    | false => exact (Bool.or_eq_false_iff.mp hnames).1
    | true => exact (h.adds_iff_staged he hslot hnames).mpr hstate
  | live =>
    cases hroom : capacityRefusal s p with
    | some st => rw [removeSlot_of_live_refused hstate hroom]; exact h
    | none =>
      rw [removeSlot_of_live_room hstate hroom]
      exact retire_steady h hopen hslot howner hstate hroom
  | retiring => rw [removeSlot_of_retiring hstate]; exact h

theorem cmdSampleRemove_steady (h : Steady s) (p : Port) (slot : Nat) : Steady (cmdSampleRemove p slot s).1 := by
  refine inSession_steady h fun hopen => ?_
  split
  case h_1 => exact h
  case h_2 =>
    split
    case h_1 => exact h
    case h_2 hslot =>
      split
      case isTrue howner => exact removeSlot_steady h hopen hslot howner
      case isFalse => exact h

end Sys2Proof.Machine
end

section
/-! SUPPORT. The commands on trip lines keep a state steady (spec/09 R141 to R144). -/

namespace Sys2Proof.Machine

variable {s : State} {p : Port}

/-! ### Lanes and lines written together -/

/-- Lanes, lines and the samples still to be judged may be written together: the lanes keep their owners and windows, and
each lane and each line is sound again. -/
theorem Steady.with_bank (h : Steady s) {lanes : Vector LaneRec 16} {trips : Vector TripLine 4} {due : LineSet}
    (howner : ∀ l : Lane, lanes[l].status.owner? = s.lanes[l].status.owner?)
    (hfree : ∀ l : Lane, lanes[l].status = .free ↔ s.lanes[l].status = .free)
    (hwindow : ∀ l : Lane, lanes[l].settings.onAt = s.lanes[l].settings.onAt ∧
      lanes[l].settings.length = s.lanes[l].settings.length)
    (hlanes : ∀ l : Lane, lanes[l].SoundUnder fun t => trips[t].detect.inForce)
    (hlineOwner : ∀ (t : Line) (q : Port), trips[t].ownership.owner? = some q → Opened s q)
    (hinformed : ∀ (t : Line) (q : Port), trips[t].informed[q] = true → Opened s q)
    (hlines : ∀ t : Line, lineSound trips[t])
    (hsamples : ∀ t : Line, due[t] = true → trips[t].ownership ≠ .free) :
    Steady { s with lanes := lanes, trips := trips, due := { s.due with trip := due } } := by
  have hstill {period : Nat} (hf : FitsPeriod s period) :
      FitsPeriod { s with lanes := lanes, trips := trips, due := { s.due with trip := due } } period := by
    obtain ⟨hold, hslots, hcommits⟩ := hf
    refine ⟨fun l hl => ?_, hslots, hcommits⟩
    obtain ⟨hon, hlength⟩ := hwindow l
    have hkept := hold l (mt (hfree l).mpr hl)
    rw [← hon, ← hlength] at hkept
    exact hkept
  exact { h with
    holders := { h.holders with
      lanes := fun l q hq => h.holders.lanes l q ((howner l).symm.trans hq)
      lines := hlineOwner
      informed := hinformed }
    lanes := hlanes
    lines := hlines
    samples := hsamples
    targets := fun e he => targetSound_congr (h.targets e he) (fun l _ _ => howner l) fun _ _ => rfl
    fits := hstill h.fits
    fitsProposed := fun pr hpr => hstill (h.fitsProposed pr hpr) }

/-- One line may be written where it stays out of force if it was, and is sound again. -/
theorem Steady.with_line (h : Steady s) {t : Line} {r : TripLine} {due : LineSet}
    (hforce : r.detect.inForce = true → inForce s t = true) (howner : ∀ q : Port, r.ownership.owner? = some q → Opened s q)
    (hinformed : ∀ q : Port, r.informed[q] = true → Opened s q) (hsound : lineSound r) (hkept : r.ownership ≠ .free)
    (hdue : ∀ j : Line, due[j] = true → s.due.trip[j] = true) :
    Steady { s with trips := s.trips.set t r, due := { s.due with trip := due } } := by
  refine h.with_bank (lanes := s.lanes) (fun _ => rfl) (fun _ => Iff.rfl) (fun _ => ⟨rfl, rfl⟩) (fun l => ?_)
    (forall_get_set (P := fun _ (r : TripLine) => ∀ q : Port, r.ownership.owner? = some q → Opened s q) howner
      fun j _ => h.holders.lines j)
    (forall_get_set (P := fun _ (r : TripLine) => ∀ q : Port, r.informed[q] = true → Opened s q) hinformed
      fun j _ => h.holders.informed j)
    (forall_get_set (P := fun _ (r : TripLine) => lineSound r) hsound fun j _ => h.lines j)
    (forall_get_set (P := fun j (r : TripLine) => due[j] = true → r.ownership ≠ .free) (fun _ => hkept)
      fun j _ hj => h.samples j (hdue j hj))
  refine ((laneSound_iff s l).mp (h.lanes l)).mono fun j hj => ?_
  rw [get_set] at hj
  split at hj
  case isTrue heq => subst heq; exact hforce hj
  case isFalse => exact hj

/-! ### Claiming and setting a line -/

theorem claimLine_steady (h : Steady s) (hopen : Opened s p) (t : Line) : Steady (claimLine p t s).1 := by
  have howned (q : Port) (hq : some p = some q) : Opened s q := Option.some.inj hq ▸ hopen
  cases hownership : s.trips[t].ownership with
  | free =>
    rw [claimLine_of_free hownership]
    exact h.with_line (due := s.due.trip) (fun hf => nomatch hf) howned
      (fun q hq => absurd ((get_noneId q).symm.trans hq) nofun)
      ⟨fun hfree => (nomatch hfree), fun _ => rfl, fun _ => rfl⟩ nofun fun _ hj => hj
  | orphaned =>
    rw [claimLine_of_orphaned hownership]
    obtain ⟨-, hcount, hinformed⟩ := h.lines t
    exact h.with_line (due := s.due.trip) id howned (h.holders.informed t)
      ⟨fun hfree => (nomatch hfree), hcount, hinformed⟩ nofun fun _ hj => hj
  | owned q =>
    rw [claimLine_of_owned hownership]
    split <;> exact h

theorem cmdTripClaim_steady (h : Steady s) (p : Port) (line : Nat) : Steady (cmdTripClaim p line s).1 := by
  refine inSession_steady h fun hopen => ?_
  split
  · exact h
  · exact claimLine_steady h hopen _

theorem Detect.restart_inForce (d : Detect) : d.restart.inForce = d.inForce := by cases d <;> rfl

theorem ownership_of_ownsLine {t : Line} (h : ownsLine s p t = true) : s.trips[t].ownership = .owned p :=
  ownsLine_iff.mp h

theorem setLine_steady (h : Steady s) {t : Line} (howner : ownsLine s p t = true) (w : TripSettings) :
    Steady (setLine t w s) := by
  have hownership := ownership_of_ownsLine howner
  obtain ⟨-, -, hinformed⟩ := h.lines t
  refine h.with_line (t := t) (r := { s.trips[t] with settings := w, detect := s.trips[t].detect.restart, qualifyCount := 0 })
    (due := s.due.trip.set t false) (fun hf => (Detect.restart_inForce _).symm.trans hf) (h.holders.lines t)
    (h.holders.informed t) ⟨fun hfree => ?_, fun _ => rfl, fun hidle => ?_⟩ ?_ fun j hj => ?_
  · rw [hownership] at hfree
    cases hfree
  · exact hinformed ((Detect.restart_inForce _).symm.trans hidle)
  · rw [hownership]
    exact nofun
  · rw [get_set] at hj
    split at hj
    · cases hj
    · exact hj

theorem cmdTripSet_steady (h : Steady s) (p : Port) (line polarity qualify mode : Nat) :
    Steady (cmdTripSet p line polarity qualify mode s).1 := by
  refine inSession_steady h fun _ => ?_
  split
  · split
    · exact setLine_steady h ‹_› _
    · exact h
  · exact h

/-! ### Releasing a line -/

theorem LaneRec.without_of_free {r : LaneRec} {t : Line} (h : r.status = .free) : (r.without t).status = .free := by
  simp only [LaneRec.without, h]

theorem LaneRec.without_of_leased {r : LaneRec} {t : Line} (h : r.status = .leased p) :
    r.without t = { status := .leased p, settings := { r.settings with tripMask := eraseId r.settings.tripMask t } } := by
  simp only [LaneRec.without, h]

theorem LaneRec.without_of_tripped {r : LaneRec} {t : Line} {cause : LineSet} {rearm : Bool}
    (h : r.status = .tripped p cause rearm) : r.without t =
      { status := .tripped p (eraseId cause t) rearm
        settings := { r.settings with tripMask := eraseId r.settings.tripMask t } } := by
  simp only [LaneRec.without, h]

theorem mem_eraseId {v : LineSet} {t j : Line} (h : (eraseId v t)[j] = true) : v[j] = true ∧ j ≠ t := by
  rw [get_eraseId, Bool.and_eq_true, Bool.not_eq_true', decide_eq_false_iff_not] at h
  exact h

theorem mem_eraseId_of {v : LineSet} {t j : Line} (h : v[j] = true) (hj : j ≠ t) : (eraseId v t)[j] = true := by
  rw [get_eraseId, h, decide_eq_false hj]
  rfl

/-- A lane without line t is sound under the lines in force other than t. -/
theorem LaneRec.SoundUnder.without {force force' : Line → Bool} {r : LaneRec} {t : Line} (h : r.SoundUnder force)
    (howned : r.status.owner? = some p) (hforce : ∀ j, force' j = true → force j = true) :
    (r.without t).SoundUnder force' := by
  cases hst : r.status with
  | free | orphaned => rw [hst] at howned; cases howned
  | leased q =>
    rw [LaneRec.without_of_leased hst]
    rw [LaneRec.soundUnder_of_leased hst] at h
    refine (LaneRec.soundUnder_of_leased rfl).mpr fun j hj => Bool.eq_false_iff.mpr fun hf => ?_
    obtain ⟨hmask, -⟩ := mem_eraseId hj
    exact Bool.false_ne_true ((h j hmask).symm.trans (hforce j hf))
  | tripped q cause rearm =>
    rw [LaneRec.without_of_tripped hst]
    rw [LaneRec.soundUnder_of_tripped hst] at h
    refine (LaneRec.soundUnder_of_tripped rfl).mpr fun j => ⟨fun hj => ?_, fun hj hf => ?_⟩
    · obtain ⟨hcause, hne⟩ := mem_eraseId hj
      exact mem_eraseId_of ((h j).1 hcause) hne
    · obtain ⟨hmask, hne⟩ := mem_eraseId hj
      obtain ⟨hcause, hrearm⟩ := (h j).2 hmask (hforce j hf)
      exact ⟨mem_eraseId_of hcause hne, hrearm⟩

/-- A lane whose mask names no line in force may be given rearm_pending. -/
theorem LaneRec.SoundUnder.rearmed {force : Line → Bool} {r : LaneRec} (h : r.SoundUnder force)
    (hnone : ∀ j : Line, r.settings.tripMask[j] = true → force j = false) : r.rearmed.SoundUnder force := by
  cases hst : r.status with
  | free | leased | orphaned => simpa only [LaneRec.rearmed, hst] using h
  | tripped q cause rearm =>
    simp only [LaneRec.rearmed, hst]
    rw [LaneRec.soundUnder_of_tripped hst] at h
    refine (LaneRec.soundUnder_of_tripped rfl).mpr fun j => ⟨(h j).1, fun hj hf => ?_⟩
    exact absurd ((hnone j hj).symm.trans hf) nofun

theorem LaneRec.rearmed_alike (r : LaneRec) : r.rearmed.Alike r := by
  unfold LaneRec.rearmed
  cases hst : r.status with
  | free | leased | orphaned => exact .rfl
  | tripped q cause rearm => exact ⟨by rw [hst]; rfl, rfl, by simp [hst]⟩

theorem LaneRec.without_owner (r : LaneRec) (t : Line) : (r.without t).status.owner? = r.status.owner? := by
  unfold LaneRec.without
  cases r.status <;> rfl

theorem LaneRec.without_free (r : LaneRec) (t : Line) : (r.without t).status = .free ↔ r.status = .free := by
  unfold LaneRec.without
  cases r.status <;> simp

/-- A lane after the release of a line: its owner, its window and whether it is FREE are as they were. -/
theorem laneAfterRelease_fields (s : State) (p : Port) (t : Line) (l : Lane) :
    (laneAfterRelease s p t l).status.owner? = s.lanes[l].status.owner? ∧
      ((laneAfterRelease s p t l).status = .free ↔ s.lanes[l].status = .free) ∧
      (laneAfterRelease s p t l).settings.onAt = s.lanes[l].settings.onAt ∧
      (laneAfterRelease s p t l).settings.length = s.lanes[l].settings.length := by
  unfold laneAfterRelease
  split
  · split
    · obtain ⟨howner, hsettings, hfree⟩ := (s.lanes[l].without t).rearmed_alike
      exact ⟨howner.trans (LaneRec.without_owner _ t), hfree.trans (LaneRec.without_free _ t), by rw [hsettings]; rfl,
        by rw [hsettings]; rfl⟩
    · exact ⟨LaneRec.without_owner _ t, LaneRec.without_free _ t, rfl, rfl⟩
  · exact ⟨rfl, Iff.rfl, rfl, rfl⟩

theorem laneAfterRelease_sound (h : Steady s) {t : Line} (l : Lane) {force : Line → Bool}
    (hforce : ∀ j, force j = true → inForce s j = true) : (laneAfterRelease s p t l).SoundUnder force := by
  have hlane := (laneSound_iff s l).mp (h.lanes l)
  unfold laneAfterRelease
  split
  case isFalse => exact hlane.mono hforce
  case isTrue howner =>
    have hwithout := hlane.without (t := t) (of_decide_eq_true howner) hforce
    split
    case isFalse => exact hwithout
    case isTrue hrearm =>
      refine hwithout.rearmed fun j hj => Bool.eq_false_iff.mpr fun hf => ?_
      obtain ⟨hgiven, -⟩ := Bool.and_eq_true_iff.mp hrearm
      obtain ⟨-, hnone⟩ := Bool.and_eq_true_iff.mp hgiven
      have hnone : anyInForce s (eraseId s.lanes[l].settings.tripMask t) ≠ true := by simpa using hnone
      exact Bool.false_ne_true ((anyInForce_eq_false hnone j hj).symm.trans (hforce j hf))

/-- The state after the release of line t, before anything is told of it (R142). -/
def withoutLine (p : Port) (t : Line) (s : State) : State :=
  { s with
    lanes := tabulate fun l => laneAfterRelease s p t l
    trips := s.trips.set t .reset
    due := { s.due with trip := s.due.trip.set t false } }

theorem releaseLine_tells (p : Port) (t : Line) (s : State) : Tells (withoutLine p t s) (releaseLine p t s) := by
  have htells : Tells s (if inForce s t then clearTrip t s else s) := by
    split
    · exact emit_tells _ s
    · exact .rfl
  obtain ⟨d, hd, hsame⟩ := htells
  refine ⟨d, ?_, hsame⟩
  unfold releaseLine
  rw [hd]
  rfl

theorem withoutLine_steady (h : Steady s) (p : Port) (t : Line) : Steady (withoutLine p t s) := by
  have hlane (l : Lane) : (tabulate fun l => laneAfterRelease s p t l)[l] = laneAfterRelease s p t l :=
    get_tabulate _ l
  refine h.with_bank (fun l => ?_) (fun l => ?_) (fun l => ?_) (fun l => ?_)
    (forall_get_set (P := fun _ (r : TripLine) => ∀ q : Port, r.ownership.owner? = some q → Opened s q)
      (fun q hq => nomatch hq) fun j _ => h.holders.lines j)
    (forall_get_set (P := fun _ (r : TripLine) => ∀ q : Port, r.informed[q] = true → Opened s q)
      (fun q hq => absurd ((get_noneId q).symm.trans hq) nofun) fun j _ => h.holders.informed j)
    (forall_get_set (P := fun _ (r : TripLine) => lineSound r) .reset fun j _ => h.lines j) fun j hj => ?_
  · obtain ⟨howner, -⟩ := laneAfterRelease_fields s p t l
    rw [hlane l]
    exact howner
  · obtain ⟨-, hfree, -⟩ := laneAfterRelease_fields s p t l
    rw [hlane l]
    exact hfree
  · obtain ⟨-, -, hwindow⟩ := laneAfterRelease_fields s p t l
    rw [hlane l]
    exact hwindow
  · rw [hlane l]
    refine laneAfterRelease_sound h l fun j hj => ?_
    rw [get_set] at hj
    split at hj
    · cases hj
    · exact hj
  · rw [get_set] at hj
    split at hj
    case isTrue => cases hj
    case isFalse hne =>
      rw [get_set_of_ne _ _ (Ne.symm hne)]
      exact h.samples j hj

theorem releaseLine_steady (h : Steady s) (p : Port) (t : Line) : Steady (releaseLine p t s) :=
  (releaseLine_tells p t s).steady (withoutLine_steady h p t)

theorem cmdTripRelease_steady (h : Steady s) (p : Port) (line : Nat) : Steady (cmdTripRelease p line s).1 := by
  refine inSession_steady h fun _ => ?_
  split
  · exact h
  · split
    · exact h
    · split
      · exact h
      · exact releaseLine_steady h p _

/-! ### Rearming lanes -/

theorem LaneStatus.isTripped_iff {st : LaneStatus} : st.isTripped = true ↔
    ∃ p cause rearm, st = .tripped p cause rearm := by
  cases st <;> simp [LaneStatus.isTripped]

theorem LaneRec.rearmed_of_not_tripped {r : LaneRec} (h : r.status.isTripped = false) : r.rearmed = r := by
  unfold LaneRec.rearmed
  cases hst : r.status with
  | free | leased | orphaned => rfl
  | tripped => rw [hst] at h; cases h

theorem rearmLanes_steady (h : Steady s) {set : LaneSet} (hclear : nonempty (stillAsserted s set) ≠ true) :
    Steady (rearmLanes set s) := by
  refine h.with_lanes (fun l => ?_) fun l => ?_
  · rw [get_tabulate]
    split
    · exact LaneRec.rearmed_alike _
    · exact .rfl
  · have hlane := (laneSound_iff s l).mp (h.lanes l)
    rw [get_tabulate]
    split
    case isFalse => exact hlane
    case isTrue hset =>
      cases htripped : s.lanes[l].status.isTripped with
      | false => rwa [LaneRec.rearmed_of_not_tripped htripped]
      | true =>
        refine hlane.rearmed fun j hj => Bool.eq_false_iff.mpr fun hf => hclear ?_
        refine (nonempty_eq_true _).mpr ⟨j, ?_⟩
        rw [stillAsserted, get_setOf, hf, Bool.true_and, someId_eq_true]
        exact ⟨l, by rw [hset, htripped, hj]; rfl⟩

theorem cmdTripRearm_steady (h : Steady s) (p : Port) (lanes : Nat) : Steady (cmdTripRearm p lanes s).1 := by
  refine inSession_steady h fun _ => ?_
  dsimp only
  split
  · exact h
  · split
    · exact h
    · split
      · exact h
      · exact rearmLanes_steady h ‹_›

end Sys2Proof.Machine
end

section
/-! SUPPORT. The commands on the proposal and on the timebase keep a state steady (spec/10 R152 to R158, spec/01 R11 to
R15). -/

namespace Sys2Proof.Machine

variable {s : State} {p : Port}

/-! ### The proposal -/

theorem everythingFits_iff {period : Nat} : everythingFits s period = true ↔ FitsPeriod s period := by
  have hslot (i : Slot) : (match s.slots[i] with
      | none => true
      | some r => decide (r.offset + 1 ≤ period)) = true ↔ ∀ r ∈ s.slots[i], r.offset < period := by
    cases s.slots[i] <;> simp
  have hentry (e : Entry) : (match e.action with
      | .laneSet _ w => w.fits period
      | .sampleAdd _ => true
      | .sampleRemove _ => true) = true ↔
      match e.action with
      | .laneSet _ w => w.onAt < period ∧ w.length ≤ period
      | .sampleAdd _ => True
      | .sampleRemove _ => True := by
    cases e.action <;> simp [LaneSettings.fits]
  have hlane (l : Lane) : (decide (s.lanes[l].status = .free) || s.lanes[l].settings.fits period) = true ↔
      (s.lanes[l].status ≠ .free → s.lanes[l].settings.onAt < period ∧ s.lanes[l].settings.length ≤ period) := by
    rw [Bool.or_eq_true, decide_eq_true_eq, LaneSettings.fits, Bool.and_eq_true, decide_eq_true_eq, decide_eq_true_eq,
      Classical.or_iff_not_imp_left]
    rfl
  rw [everythingFits, Bool.and_eq_true, Bool.and_eq_true, everyId_eq_true, everyId_eq_true, List.all_eq_true, and_assoc]
  exact and_congr (forall_congr' hlane) (and_congr (forall_congr' hslot)
    (forall_congr' fun e => imp_congr_right fun _ => hentry e))

/-- A bound port has an OPEN session. -/
theorem Steady.opened_of_bound (h : Steady s) {q : Port} (hq : bound s q = true) : Opened s q := by
  rw [bound, Bool.or_eq_true, Bool.or_eq_true, someId_eq_true, someId_eq_true, someId_eq_true] at hq
  obtain (⟨l, hl⟩ | ⟨t, ht⟩) | ⟨i, hi⟩ := hq
  · exact h.holders.lanes l q (of_decide_eq_true hl)
  · exact h.holders.lines t q (of_decide_eq_true ht)
  · unfold ownsSlot at hi
    cases hslot : s.slots[i] with
    | none => rw [hslot] at hi; cases hi
    | some r =>
      rw [hslot] at hi
      have howner : r.owner = q := of_decide_eq_true hi
      exact howner ▸ h.holders.slots i r hslot

theorem Steady.opened_of_electorate (h : Steady s) (hopen : Opened s p) {q : Port}
    (hq : (electorateOf s p)[q] = true) : Opened s q := by
  rw [electorateOf, get_setOf, Bool.or_eq_true, decide_eq_true_eq] at hq
  obtain hbound | rfl := hq
  · exact h.opened_of_bound hbound
  · exact hopen

theorem newProposal_stands (h : Steady s) (p : Port) (period : Nat) (source : NewSource) {votes : Nat}
    (hvotes : 1 ≤ votes ∧ votes ≤ 255) (b : Bool) : (newProposal s p period source votes).Stands b where
  id := h.nextId
  votes := ⟨hvotes.1, hvotes.2, Nat.le_refl votes⟩
  proposer := (get_single p p).trans (decide_eq_true rfl)
  voters := by
    intro q hq
    have hq : q = p := of_decide_eq_true ((get_single p q).symm.trans hq)
    refine (get_setOf _ q).trans ?_
    rw [decide_eq_true hq, Bool.or_true]
  accepted := by
    change (if electorateOf s p = single p then ProposalState.accepted else .opened) = .accepted ↔ single p = electorateOf s p
    split
    case isTrue heq => exact iff_of_true rfl heq.symm
    case isFalse hne => exact iff_of_false nofun fun heq => hne heq.symm
  framesLeft := by
    intro _ hzero
    change votes = 0 at hzero
    omega

theorem newSourceOf?_inRange {period source window : Nat} {src : NewSource}
    (h : newSourceOf? period source window = some src) : src.inRange period = true := by
  unfold newSourceOf? at h
  split at h
  case h_1 => cases h
  case h_2 => cases h; rfl
  case h_3 =>
    split at h
    case isTrue hwindow =>
      cases h
      obtain ⟨hlow, hhigh, hp⟩ := hwindow
      simp [NewSource.inRange, hlow, hhigh, hp]
    case isFalse => cases h

theorem idAfter_range {n : Nat} (h : n ≤ 255) : 1 ≤ idAfter n ∧ idAfter n ≤ 255 := by
  unfold idAfter
  split <;> omega

theorem openProposal_steady (h : Steady s) {pr : Proposal} (hstands : pr.Stands s.due.agreement)
    (hallowed : pr.Allowed) (hrunning : running s = true) (hfits : FitsPeriod s pr.period)
    (hproposer : Opened s pr.proposer) (hvoters : ∀ q : Port, pr.electorate[q] = true → Opened s q)
    (hdue : s.agreement.proposal = none) : Steady (openProposal pr s) := by
  refine (emit_tells _ _).steady { h with
    allowed := ?_
    response := ?_
    holders := { h.holders with proposer := ?_, electorate := ?_, accepted := ?_ }
    fitsProposed := ?_
    nextId := idAfter_range h.nextId.2
    running := fun _ _ => hrunning
    stands := ?_ }
  · rintro _ ⟨⟩; exact hallowed
  · intro hresponse
    obtain ⟨hsome, -⟩ := h.response hresponse
    rw [hdue] at hsome
    cases hsome
  · rintro _ ⟨⟩; exact hproposer
  · rintro _ ⟨⟩; exact hvoters
  · rintro _ ⟨⟩ q hq; exact hvoters q (hstands.voters q hq)
  · rintro _ ⟨⟩; exact hfits
  · rintro _ ⟨⟩; exact hstands

theorem cmdPropose_steady (h : Steady s) (p : Port) (period source window votes : Nat) :
    Steady (cmdPropose p period source window votes s).1 := by
  refine inSession_steady h fun hopen => ?_
  split
  case h_1 => exact h
  case h_2 src hsrc =>
    split
    case isFalse => exact h
    case isTrue hrange =>
      obtain ⟨hlow, hhigh, hvotes⟩ := hrange
      unfold openChecked
      split
      case isTrue => exact h
      case isFalse hrunning =>
        split
        case isTrue => exact h
        case isFalse hbusy =>
          split
          case isTrue => exact h
          case isFalse hfits =>
            have hfits : everythingFits s period = true := by simpa using hfits
            exact openProposal_steady h (newProposal_stands h p period src hvotes _)
              ⟨⟨hlow, hhigh⟩, newSourceOf?_inRange hsrc⟩ (by simpa using hrunning) (everythingFits_iff.mp hfits) hopen
              (fun q hq => h.opened_of_electorate hopen hq) (Option.not_isSome_iff_eq_none.mp hbusy)

theorem Proposal.Stands.accept {b : Bool} {pr : Proposal} (h : pr.Stands b) (hvoter : pr.electorate[p] = true) :
    (pr.accept p).Stands b where
  id := h.id
  votes := h.votes
  proposer := by
    refine (get_insertId pr.accepted p pr.proposer).trans ?_
    rw [h.proposer, Bool.true_or]
  voters := by
    intro q hq
    have hq : (pr.accepted[q] || decide (q = p)) = true := (get_insertId pr.accepted p q).symm.trans hq
    rw [Bool.or_eq_true, decide_eq_true_eq] at hq
    obtain hold | rfl := hq
    · exact h.voters q hold
    · exact hvoter
  accepted := by
    change (if insertId pr.accepted p = pr.electorate then ProposalState.accepted else pr.state) = .accepted ↔
      insertId pr.accepted p = pr.electorate
    split
    case isTrue heq => exact iff_of_true rfl heq
    case isFalse hne =>
      refine iff_of_false (fun hst => hne ?_) hne
      rw [h.accepted.mp hst]
      refine table_ext fun q => ?_
      rw [get_insertId]
      by_cases hq : q = p
      · rw [hq, hvoter, Bool.true_or]
      · rw [decide_eq_false hq, Bool.or_false]
  framesLeft := by
    change (if insertId pr.accepted p = pr.electorate then ProposalState.accepted else pr.state) = .opened → _
    split
    · exact fun hst => nomatch hst
    · exact h.framesLeft

theorem castVote_steady (h : Steady s) {pr : Proposal} (hpr : s.agreement.proposal = some pr)
    (hvoter : pr.electorate[p] = true) (c : Choice) : Steady (castVote p pr c s).1 := by
  cases c with
  | reject => exact endProposal_steady h _ _
  | accept =>
    refine { h with
      allowed := ?_
      response := fun hdue => ⟨rfl, (h.response hdue).2⟩
      holders := { h.holders with proposer := ?_, electorate := ?_, accepted := ?_ }
      fitsProposed := ?_
      running := fun _ _ => h.running pr hpr
      stands := ?_ }
    · rintro _ ⟨⟩; exact h.allowed pr hpr
    · rintro _ ⟨⟩; exact h.holders.proposer pr hpr
    · rintro _ ⟨⟩; exact h.holders.electorate pr hpr
    · rintro _ ⟨⟩ q hq
      exact h.holders.electorate pr hpr q (((h.stands pr hpr).accept hvoter).voters q hq)
    · rintro _ ⟨⟩; exact h.fitsProposed pr hpr
    · rintro _ ⟨⟩; exact (h.stands pr hpr).accept hvoter

theorem cmdVote_steady (h : Steady s) (p : Port) (id choice : Nat) : Steady (cmdVote p id choice s).1 := by
  refine inSession_steady h fun _ => ?_
  split
  case h_1 => exact h
  case h_2 =>
    unfold voteChecked
    split
    case h_1 => exact h
    case h_2 pr hpr =>
      split
      case isTrue => exact h
      case isFalse =>
        split
        case isTrue => exact h
        case isFalse hvoter =>
          split
          case isTrue => exact h
          case isFalse => exact castVote_steady h hpr (by simpa using hvoter) _

theorem cmdWithdraw_steady (h : Steady s) (p : Port) (id : Nat) : Steady (cmdWithdraw p id s).1 := by
  refine inSession_steady h fun _ => ?_
  split
  · exact h
  · split
    · exact h
    · split
      · exact h
      · exact endProposal_steady h _ _

/-! ### Starting and stopping the timebase -/

theorem Steady.no_proposal_of_stopped (h : Steady s) (hstopped : Machine.running s = false) :
    s.agreement.proposal = none := by
  cases hpr : s.agreement.proposal with
  | none => rfl
  | some pr => exact absurd (hstopped.symm.trans (h.running pr hpr)) nofun

theorem Steady.no_response_of_no_proposal (h : Steady s) (hnone : s.agreement.proposal = none) :
    s.due.agreement = false := by
  refine Bool.eq_false_iff.mpr fun hdue => ?_
  obtain ⟨hsome, -⟩ := h.response hdue
  rw [hnone] at hsome
  cases hsome

theorem SyncMonitor.InRange.start {m : SyncMonitor} (h : m.InRange) (source : Source) : (m.start source).InRange := by
  cases source with
  | free => exact h
  | follow => exact .cleared

theorem Source.startState_underSource (source : Source) : source.startState.underSource source = true := by
  cases source <;> rfl

/-- With no lapse due and no proposal, a steady state may take another state of the timebase, its frame and its monitor. -/
theorem Steady.with_frame (h : Steady s) (hlapse : NoLapse s) (hnone : s.agreement.proposal = none) {tb : Timebase}
    {sync : SyncMonitor} {wrap : Bool} (htb : tb.InRange) (hperiod : tb.period = s.tb.period) (hsync : sync.InRange)
    (hgrace : sync.grace = false) :
    Steady { s with tb := tb, sync := sync, due := { s.due with wrap := wrap } } :=
  { h with
    tb := htb
    sync := hsync
    grace := fun hopen => absurd (hgrace.symm.trans hopen) nofun
    response := fun hdue => absurd ((h.no_response_of_no_proposal hnone).symm.trans hdue) nofun
    sessions := fun q => Session.sound_of_below (h.sessions q) (hlapse q) _
    holders := { h.holders with }
    fits := by
      change FitsPeriod s tb.period
      rw [hperiod]
      exact h.fits
    running := by
      intro pr hpr
      exact absurd (hnone.symm.trans hpr) nofun }

/-- The state from which the START boundary is made (R11). -/
theorem startFrame_steady (h : Steady s) (hlapse : NoLapse s) (hstopped : running s = false) :
    Steady { s with
      tb := { s.tb with state := s.tb.source.startState, counter := 0, seq := 0 }
      sync := s.sync.start s.tb.source } := by
  have hgrace : s.sync.grace = false := by
    refine Bool.eq_false_iff.mpr fun hopen => ?_
    obtain ⟨hlocked, -⟩ := h.grace hopen
    rw [running, hlocked] at hstopped
    cases hstopped
  have hstart : (s.sync.start s.tb.source).grace = false := by
    cases s.tb.source with
    | free => exact hgrace
    | follow => rfl
  have hperiod := h.tb.period
  exact h.with_frame (wrap := s.due.wrap) hlapse (h.no_proposal_of_stopped hstopped)
    { h.tb with counter := by dsimp only; omega, seq := Nat.zero_lt_succ _, state := Source.startState_underSource _ }
    rfl (h.sync.start _) hstart

theorem cmdTbStart_steady (h : Steady s) (hlapse : NoLapse s) (p : Port) : Steady (cmdTbStart p s).1 := by
  refine inSession_steady h fun _ => ?_
  split
  case isTrue => exact h
  case isFalse hstopped =>
    have hstart := startFrame_steady h hlapse (Bool.eq_false_iff.mpr hstopped)
    exact (emitAll_tells _ _).steady (makeBoundary_steady .start hstart hlapse)

theorem abortQueue_steady (h : Steady s) : Steady (abortQueue s) := by
  refine (deliverAll_tells _ _ _).steady (h.with_conv (Nat.zero_le 8) h.holders.flight (fun r hr => nomatch hr) ?_)
  cases hflight : s.conv.inFlight with
  | none => exact (converterSound_of_idle (s := { s with conv := { s.conv with queue := [] } }) hflight).mpr rfl
  | some c =>
    obtain ⟨helapsed, hwait, hcapture, -⟩ := (converterSound_of_busy hflight).mp h.converter
    exact (converterSound_of_busy (s := { s with conv := { s.conv with queue := [] } }) hflight).mpr
      ⟨helapsed, hwait, hcapture, trivial⟩

theorem stopTimebase_steady (h : Steady s) (hlapse : NoLapse s) (hnone : s.agreement.proposal = none) (p : Port) :
    Steady (stopTimebase p s) := by
  have hslots := h.with_slots (slots := s.slots.map fun r => r.map SlotRec.unfired) fun i => by
    rw [get_map, Option.map_map]
    rfl
  have hstopped : ({ s.tb with state := .stopped } : Timebase).InRange := { h.tb with state := rfl }
  exact (emitAll_tells _ _).steady (abortQueue_steady
    (hslots.with_frame (tb := { s.tb with state := .stopped }) (sync := { s.sync with grace := false }) (wrap := false)
      hlapse hnone hstopped rfl { h.sync with } rfl))

theorem cmdTbStop_steady (h : Steady s) (hlapse : NoLapse s) (p : Port) : Steady (cmdTbStop p s).1 := by
  refine inSession_steady h fun _ => ?_
  split
  · exact h
  · split
    · exact h
    · split
      case isTrue => exact h
      case isFalse hnone => exact stopTimebase_steady h hlapse (Option.not_isSome_iff_eq_none.mp hnone) p

theorem cmdStatus_steady (h : Steady s) (p : Port) (selector : Nat) (before : Option Nat) :
    Steady (cmdStatus p selector before s).1 := by
  unfold cmdStatus
  split <;> exact h

/-! ### Every request -/

/-- The command of a request keeps a state steady; `tb_start` and `tb_stop` come when no lapse is due. -/
theorem dispatch_steady (h : Steady s) (p : Port) (before : Option Nat) (r : Request)
    (hlapse : setsTimebase r = true → NoLapse s) : Steady (dispatch p before r s).1 := by
  cases r with
  | sessionOpen limit threshold => exact cmdSessionOpen_steady h p limit threshold
  | nop => exact h
  | status selector => exact cmdStatus_steady h p selector before
  | sessionClose => exact cmdSessionClose_steady h p
  | tbStart => exact cmdTbStart_steady h (hlapse rfl) p
  | tbStop => exact cmdTbStop_steady h (hlapse rfl) p
  | laneLease lane => exact cmdLaneLease_steady h p lane
  | laneRelease lane => exact cmdLaneRelease_steady h p lane
  | laneSet lane onAt length active safe mask => exact cmdLaneSet_steady h p lane onAt length active safe mask
  | groupBegin => exact cmdGroupBegin_steady h p
  | groupEnd => exact cmdGroupEnd_steady h p
  | groupCancel => exact cmdGroupCancel_steady h p
  | sampleAdd offset channel mode divisor phase maxWait tag =>
    exact cmdSampleAdd_steady h p offset channel mode divisor phase maxWait tag
  | sampleRemove slot => exact cmdSampleRemove_steady h p slot
  | readResults max => exact cmdReadResults_steady h p max
  | readEvents max => exact cmdReadEvents_steady h p max
  | tripClaim line => exact cmdTripClaim_steady h p line
  | tripRelease line => exact cmdTripRelease_steady h p line
  | tripSet line polarity qualify mode => exact cmdTripSet_steady h p line polarity qualify mode
  | tripRearm lanes => exact cmdTripRearm_steady h p lanes
  | propose period source window votes => exact cmdPropose_steady h p period source window votes
  | vote id choice => exact cmdVote_steady h p id choice
  | withdraw id => exact cmdWithdraw_steady h p id

end Sys2Proof.Machine
end

section
/-! SUPPORT. What no command of a request touches, one frame for all of them (spec/11 R169): the pins, the links, the
queue, the tick stamp and a waiting SYNC_LOCKED; and the timebase, unless the request starts or stops it. -/

namespace Sys2Proof.Machine

/-- What no command but `tb_start` and `tb_stop` writes: all outside the blocks, a waiting SYNC_LOCKED, the timebase. -/
structure Shell where
  inReset : Bool
  tickStamp : Nat
  links : Vector Link 4
  pins : Pins
  pending : List Instr
  locked : Option Bool
  tb : Timebase

def State.shell (s : State) : Shell :=
  { inReset := s.inReset, tickStamp := s.tickStamp, links := s.links, pins := s.pins, pending := s.pending
    locked := s.due.locked, tb := s.tb }

theorem outside_of_shell {s t : State} {tb : Timebase} (h : t.shell = { s.shell with tb := tb }) : SameOutside s t :=
  ⟨congrArg Shell.inReset h, congrArg Shell.tickStamp h, congrArg Shell.links h, congrArg Shell.pins h,
    congrArg Shell.pending h⟩

theorem locked_of_shell {s t : State} {tb : Timebase} (h : t.shell = { s.shell with tb := tb }) :
    t.due.locked = s.due.locked :=
  congrArg Shell.locked h

theorem tb_of_shell {s t : State} {tb : Timebase} (h : t.shell = { s.shell with tb := tb }) : t.tb = tb :=
  congrArg Shell.tb h

theorem Tells.shell {s t : State} (h : Tells s t) : t.shell = s.shell := by
  obtain ⟨d, rfl, -⟩ := h
  rfl

variable {s : State} {p : Port}

theorem inSession_shell {cmd : Command} (h : (cmd s).1.shell = s.shell) : (inSession p cmd s).1.shell = s.shell := by
  obtain ⟨-, heq⟩ | ⟨-, heq⟩ | ⟨-, heq⟩ := inSession_cases p cmd s
  · rw [heq]; rfl
  · rw [heq]; exact h
  · rw [heq]; rfl

theorem endSession_shell (k : EndKind) (p : Port) (s : State) : (endSession k p s).shell = s.shell :=
  (endSession_tells k p s).shell.trans rfl

theorem endProposal_shell (id : Nat) (o : ProposalOutcome) (s : State) : (endProposal id o s).shell = s.shell :=
  rfl

theorem leaseLane_shell (p : Port) (l : Lane) (s : State) : (leaseLane p l s).1.shell = s.shell := by
  unfold leaseLane
  split
  · rfl
  · rfl
  · split <;> rfl
  · split <;> rfl

theorem stageSettings_shell (p : Port) (l : Lane) (w : LaneSettings) (s : State) :
    (stageSettings p l w s).1.shell = s.shell := by
  unfold stageSettings
  split
  · rfl
  · split
    · rfl
    · split <;> rfl

theorem stageSlot_shell (p : Port) (r : SlotRec) (s : State) : (stageSlot p r s).1.shell = s.shell := by
  unfold stageSlot
  split
  · rfl
  · split
    · rfl
    · split <;> rfl

theorem removeSlot_shell (p : Port) (i : Slot) (r : SlotRec) (s : State) : (removeSlot p i r s).1.shell = s.shell := by
  unfold removeSlot
  split
  · rfl
  · split <;> rfl
  · rfl

theorem claimLine_shell (p : Port) (t : Line) (s : State) : (claimLine p t s).1.shell = s.shell := by
  unfold claimLine
  split
  · rfl
  · rfl
  · split <;> rfl

theorem releaseLine_shell (p : Port) (t : Line) (s : State) : (releaseLine p t s).shell = s.shell :=
  (releaseLine_tells p t s).shell.trans rfl

theorem openChecked_shell (p : Port) (period : Nat) (source : NewSource) (votes : Nat) (s : State) :
    (openChecked p period source votes s).1.shell = s.shell := by
  unfold openChecked
  split
  · rfl
  · split
    · rfl
    · split
      · rfl
      · exact rfl

theorem voteChecked_shell (p : Port) (id : Nat) (c : Choice) (s : State) : (voteChecked p id c s).1.shell = s.shell := by
  unfold voteChecked castVote
  split
  · rfl
  · split
    · rfl
    · split
      · rfl
      · split
        · rfl
        · split
          · rfl
          · exact endProposal_shell _ _ s

theorem stopTimebase_shell (p : Port) (s : State) :
    (stopTimebase p s).shell = { s.shell with tb := { s.tb with state := .stopped } } := by
  unfold stopTimebase
  obtain ⟨d, h⟩ := abortQueue_frame
    { s with
      tb := { s.tb with state := .stopped }
      sync := { s.sync with grace := false }
      slots := s.slots.map fun r => r.map SlotRec.unfired
      due := { s.due with wrap := false } }
  rw [h]
  exact rfl

/-- A command that neither starts nor stops the timebase leaves the whole shell. -/
theorem dispatch_shell_of_plain (p : Port) (before : Option Nat) {r : Request} (hplain : setsTimebase r = false)
    (s : State) : (dispatch p before r s).1.shell = s.shell := by
  cases r with
  | nop => rfl
  | sessionOpen limit threshold =>
    change (cmdSessionOpen p limit threshold s).1.shell = s.shell
    unfold cmdSessionOpen
    split
    · split <;> rfl
    · rfl
  | status selector =>
    change (cmdStatus p selector before s).1.shell = s.shell
    unfold cmdStatus
    split <;> rfl
  | sessionClose => exact inSession_shell (endSession_shell _ p s)
  | tbStart => cases hplain
  | tbStop => cases hplain
  | laneLease lane =>
    refine inSession_shell ?_
    split
    · rfl
    · exact leaseLane_shell p _ s
  | laneRelease lane =>
    refine inSession_shell ?_
    split
    · rfl
    · split <;> rfl
  | laneSet =>
    refine inSession_shell ?_
    split
    · exact stageSettings_shell p _ _ s
    · rfl
  | groupBegin => refine inSession_shell ?_; split <;> rfl
  | groupEnd => refine inSession_shell ?_; split <;> rfl
  | groupCancel => refine inSession_shell ?_; split <;> rfl
  | sampleAdd =>
    refine inSession_shell ?_
    split
    · exact stageSlot_shell p _ s
    · rfl
  | sampleRemove slot =>
    refine inSession_shell ?_
    split
    · rfl
    · split
      · rfl
      · split
        · exact removeSlot_shell p _ _ s
        · rfl
  | readResults max => refine inSession_shell ?_; split <;> rfl
  | readEvents max => refine inSession_shell ?_; split <;> rfl
  | tripClaim line =>
    refine inSession_shell ?_
    split
    · rfl
    · exact claimLine_shell p _ s
  | tripRelease line =>
    refine inSession_shell ?_
    split
    · rfl
    · split
      · rfl
      · split
        · rfl
        · exact releaseLine_shell p _ s
  | tripSet =>
    refine inSession_shell ?_
    split
    · split
      · exact rfl
      · rfl
    · rfl
  | tripRearm lanes =>
    refine inSession_shell ?_
    dsimp only
    split
    · rfl
    · split
      · rfl
      · split <;> rfl
  | propose =>
    refine inSession_shell ?_
    split
    · rfl
    · split
      · exact openChecked_shell p _ _ _ s
      · rfl
  | vote id choice =>
    refine inSession_shell ?_
    split
    · rfl
    · exact voteChecked_shell p id _ s
  | withdraw id =>
    refine inSession_shell ?_
    split
    · rfl
    · split
      · rfl
      · split
        · rfl
        · exact endProposal_shell _ _ s

/-- `tb_start` leaves a running timebase, and starts a STOPPED one with its terms. -/
theorem cmdTbStart_shell (p : Port) (s : State) : (cmdTbStart p s).1.shell = s.shell ∨
    running s = false ∧ (cmdTbStart p s).1.shell =
      { s.shell with tb := { s.tb with state := s.tb.source.startState, counter := 0, seq := 0 } } := by
  obtain ⟨-, heq⟩ | ⟨-, heq⟩ | ⟨-, heq⟩ := inSession_cases p
    (fun s => if running s then refuse .busy s else okay (startTimebase s)) s
  · exact .inl (congrArg (fun r : State × Answer => r.1.shell) heq)
  · unfold cmdTbStart
    rw [heq]
    dsimp only
    split
    case isTrue => exact .inl rfl
    case isFalse hstopped => exact .inr ⟨Bool.eq_false_iff.mpr hstopped, rfl⟩
  · exact .inl (congrArg (fun r : State × Answer => r.1.shell) heq)

/-- `tb_stop` leaves the timebase, or stops it with its terms. -/
theorem cmdTbStop_shell (p : Port) (s : State) : (cmdTbStop p s).1.shell = s.shell ∨
    (cmdTbStop p s).1.shell = { s.shell with tb := { s.tb with state := .stopped } } := by
  obtain ⟨-, heq⟩ | ⟨-, heq⟩ | ⟨-, heq⟩ := inSession_cases p
    (fun s =>
      if !running s then refuse .stopped s
      else if otherBound s p then refuse .inUse s
      else if s.agreement.proposal.isSome then refuse .busy s
      else okay (stopTimebase p s)) s
  · exact .inl (congrArg (fun r : State × Answer => r.1.shell) heq)
  · unfold cmdTbStop
    rw [heq]
    dsimp only
    split
    · exact .inl rfl
    · split
      · exact .inl rfl
      · split
        · exact .inl rfl
        · exact .inr (stopTimebase_shell p s)
  · exact .inl (congrArg (fun r : State × Answer => r.1.shell) heq)

/-- Every command leaves the shell, but for the state and the place in the frame that `tb_start` and `tb_stop` write. -/
theorem dispatch_shell (p : Port) (before : Option Nat) (r : Request) (s : State) : ∃ st counter seq,
    (dispatch p before r s).1.shell = { s.shell with tb := { s.tb with state := st, counter := counter, seq := seq } } := by
  cases hsets : setsTimebase r with
  | false => exact ⟨_, _, _, dispatch_shell_of_plain p before hsets s⟩
  | true =>
    rw [setsTimebase, Bool.or_eq_true, decide_eq_true_eq, decide_eq_true_eq] at hsets
    obtain rfl | rfl := hsets
    · obtain h | ⟨-, h⟩ := cmdTbStart_shell p s
      · exact ⟨_, _, _, h⟩
      · exact ⟨_, _, _, h⟩
    · obtain h | h := cmdTbStop_shell p s
      · exact ⟨_, _, _, h⟩
      · exact ⟨_, _, _, h⟩

end Sys2Proof.Machine
end

section
/-! SUPPORT. A request as its row and as the end of its transaction take it (spec/11 R167; log 8). -/

namespace Sys2Proof.Machine

/-- Request r taken at port p with a tag. -/
def takes (p : Port) (tag : Nat) (r : Request) (s : State) : State :=
  if setsTimebase r then takeTimebaseRequest p tag (fun before => dispatch p before r) s
  else takeRequest p tag (fun before => dispatch p before r) s

theorem takes_of_plain {r : Request} (h : setsTimebase r = false) (p : Port) (tag : Nat) :
    takes p tag r = takeRequest p tag fun before => dispatch p before r := by
  funext s
  rw [takes, h, if_neg Bool.false_ne_true]

theorem takes_of_timebase {r : Request} (h : setsTimebase r = true) (p : Port) (tag : Nat) :
    takes p tag r = takeTimebaseRequest p tag fun before => dispatch p before r := by
  funext s
  rw [takes, h, if_pos rfl]

/-- A request's row takes it, out of reset. -/
theorem exec_toInstr (p : Port) (tag : Nat) (r : Request) (s : State) :
    exec (Request.toInstr p tag r) s = .next (whileRunning (takes p tag r) s) := by
  cases r
  case tbStart => rw [takes_of_timebase rfl]; rfl
  case tbStop => rw [takes_of_timebase rfl]; rfl
  all_goals rw [takes_of_plain rfl]; rfl

/-- A command with a request is that request's row. -/
theorem eq_toInstr_of_request {i : Instr} {p : Port} {tag : Nat} {r : Request} (h : i.request? = some (p, tag, r)) :
    i = Request.toInstr p tag r := by
  cases i <;> cases h <;> rfl

/-- The state on which the command of a request of port p acts: the waiting SYNC_LOCKED is sent, p's lapse taken, p heard
(R38, R49). -/
def onRequest (p : Port) (s : State) : State := hear p (takeLapse p (takeLocked s))

theorem takeRequest_dispatch (p : Port) (tag : Nat) (r : Request) (s : State) : ∃ before resp,
    takeRequest p tag (fun before => dispatch p before r) s = hold p resp (dispatch p before r (onRequest p s)).1 :=
  ⟨_, _, rfl⟩

/-- A request is taken on the state as it is, or, when it sets the timebase, after all that a boundary calls for. -/
theorem takes_cases (p : Port) (tag : Nat) (r : Request) (s : State) : ∃ u before resp,
    ((setsTimebase r = true ∧ u = finishBoundary s) ∨ (setsTimebase r = false ∧ u = s)) ∧
      takes p tag r s = hold p resp (dispatch p before r (onRequest p u)).1 := by
  unfold takes
  cases hr : setsTimebase r with
  | true => exact ⟨finishBoundary s, _, _, .inl ⟨rfl, rfl⟩, rfl⟩
  | false => exact ⟨s, _, _, .inr ⟨rfl, rfl⟩, rfl⟩

/-! ### A request keeps a state steady -/

theorem onRequest_steady {s : State} (h : Steady s) (p : Port) : Steady (onRequest p s) :=
  hear_steady (takeLapse_steady (takeLocked_steady h) p) p

theorem onRequest_noLapse {s : State} (h : Steady s) (hlapse : NoLapse s) (p : Port) : NoLapse (onRequest p s) := by
  refine hear_noLapse (takeLapse_steady (takeLocked_steady h) p) (fun q => ?_) p
  rw [takeLapse_lapses, takeLocked_sessions, hlapse q]
  rfl

theorem takes_steady {s : State} (h : Steady s) (p : Port) (tag : Nat) (r : Request) : Steady (takes p tag r s) := by
  obtain ⟨u, before, resp, hu, heq⟩ := takes_cases p tag r s
  rw [heq]
  refine hold_steady ?_ p resp
  obtain ⟨-, rfl⟩ | ⟨hplain, rfl⟩ := hu
  · have hfinished := finishBoundary_steady h
    exact dispatch_steady (onRequest_steady hfinished p) p before r
      fun _ => onRequest_noLapse hfinished (finishBoundary_noLapse s) p
  · exact dispatch_steady (onRequest_steady h p) p before r
      fun hsets => absurd (hplain.symm.trans hsets) nofun

end Sys2Proof.Machine
end

section
/-! SUPPORT. A waiting SYNC_LOCKED: which happenings send it, and when it still waits (spec/02 R30, R34; log 29). -/

namespace Sys2Proof.Machine

variable {s : State}

theorem lockedWaits_of_none (h : s.due.locked = none) : LockedWaits s := fun hwaits => absurd h hwaits

theorem takeLocked_locked (s : State) : (takeLocked s).due.locked = none := by
  obtain ⟨d, h⟩ := takeLocked_frame s
  rw [h]

theorem endSession_locked (k : EndKind) (p : Port) (s : State) : (endSession k p s).due.locked = s.due.locked :=
  locked_of_shell (endSession_shell k p s)

theorem lapsePort_locked (p : Port) (s : State) : (lapsePort p s).due.locked = s.due.locked := by
  rw [lapsePort, emitAll_due, endSession_locked]

theorem takeLapse_locked {p : Port} (h : s.due.locked = none) : (takeLapse p s).due.locked = none := by
  unfold takeLapse
  split
  · rw [releaseLocked_of_not_due _ ((lapsePort_locked p s).trans h), lapsePort_locked, h]
  · exact h

theorem takeWrap_locked (s : State) : (takeWrap s).due.locked = s.due.locked := by
  unfold takeWrap
  split <;> rfl

theorem takeGrace_locked (s : State) : (takeGrace s).due.locked = s.due.locked := by
  unfold takeGrace
  split
  · unfold graceRunsOut
    dsimp only
    split <;> rfl
  · rfl

theorem takeCompletion_locked (s : State) : (takeCompletion s).due.locked = s.due.locked := by
  obtain ⟨c, d, h⟩ := takeCompletion_frame s
  rw [h]

theorem fireDue_locked (s : State) : (fireDue s).due.locked = s.due.locked := by
  obtain ⟨sl, es, c, d, h⟩ := fireDue_frame s
  rw [h]

theorem takeSchedule_locked (s : State) : (takeSchedule s).due.locked = s.due.locked := by
  unfold takeSchedule
  split
  · exact fireDue_locked s
  · rfl

theorem takeCommits_locked (s : State) : (takeCommits s).due.locked = s.due.locked := by
  unfold takeCommits
  split
  · obtain ⟨es, la, sl, c, tr, d, h⟩ := applyCommits_frame s
    rw [h]
  · rfl

theorem takeProposalCommit_locked (s : State) : (takeProposalCommit s).due.locked = s.due.locked := by
  unfold takeProposalCommit
  split
  · split <;> rfl
  · rfl

theorem takeProposalExpiry_locked (s : State) : (takeProposalExpiry s).due.locked = s.due.locked := by
  unfold takeProposalExpiry
  split
  · split
    · split <;> rfl
    · rfl
  · rfl

theorem takeAgreement_locked (s : State) : (takeAgreement s).due.locked = s.due.locked :=
  (takeProposalExpiry_locked _).trans (takeProposalCommit_locked s)

theorem takeResume_locked (s : State) : (takeResume s).due.locked = s.due.locked := by
  obtain ⟨la, d, h⟩ := takeResume_frame s
  rw [h]

theorem takeSample_locked (t : Line) (s : State) : (takeSample t s).due.locked = s.due.locked := by
  obtain ⟨la, tr, d, du, h⟩ := takeSample_frame t s
  rw [h]

theorem takeAssertion_locked (t : Line) (s : State) : (takeAssertion t s).due.locked = s.due.locked := by
  unfold takeAssertion
  split <;> rfl

theorem deassertLine_locked (t : Line) (s : State) : (deassertLine t s).due.locked = s.due.locked := by
  unfold deassertLine recoverLanes
  dsimp only
  split <;> rfl

theorem takeDeassertion_locked (t : Line) (s : State) : (takeDeassertion t s).due.locked = s.due.locked := by
  unfold takeDeassertion
  split
  · exact deassertLine_locked t _
  · rfl

theorem takeResponses_locked (h : s.due.locked = none) : (takeResponses s).due.locked = none := by
  unfold takeResponses
  rw [takeResume_locked]
  exact takeLapse_locked (takeLapse_locked (takeLapse_locked (takeLapse_locked
    ((takeAgreement_locked _).trans ((takeCommits_locked s).trans h)))))

theorem finishBoundary_locked (s : State) : (finishBoundary s).due.locked = none :=
  takeResponses_locked ((takeSchedule_locked _).trans (takeLocked_locked s))

theorem settle_locked (s : State) : (settle s).due.locked = none := by
  unfold settle
  dsimp only
  rw [takeSample_locked, takeSample_locked, takeSample_locked, takeSample_locked]
  exact takeResponses_locked ((fireDue_locked _).trans (takeLocked_locked _))

/-- After the lapses that come first, the SYNC_LOCKED waits on only where another lapse is due. -/
theorem releaseLocked_waits (hstate : s.due.locked ≠ none → s.tb.state = .locked) : LockedWaits (releaseLocked s) := by
  obtain ⟨hdue, h⟩ | ⟨-, h⟩ := releaseLocked_cases s
  · rw [h]
    exact fun hwaits => ⟨hstate hwaits, hdue⟩
  · rw [h]
    exact lockedWaits_of_none (takeLocked_locked s)

theorem takeLapse_waits (h : LockedWaits s) (p : Port) : LockedWaits (takeLapse p s) := by
  unfold takeLapse
  split
  case isFalse => exact h
  case isTrue =>
    refine releaseLocked_waits fun hwaits => ?_
    rw [lapsePort_locked] at hwaits
    obtain ⟨hstate, -⟩ := h hwaits
    obtain ⟨ag, du, d, hframe⟩ := lapsePort_frame p s
    rw [hframe]
    exact hstate

theorem acceptLock_waits (s : State) : LockedWaits (acceptLock s) := by
  unfold acceptLock
  dsimp only
  split
  · exact releaseLocked_waits fun _ => rfl
  · exact lockedWaits_of_none (takeLocked_locked _)

theorem judgeLocked_locked (s : State) : (judgeLocked s).due.locked = s.due.locked := by
  unfold judgeLocked
  split
  · split
    · split <;> rfl
    · rfl
  · split <;> rfl

theorem judgeEdge_waits (h : s.due.locked = none) : LockedWaits (judgeEdge s) := by
  unfold judgeEdge
  split
  · exact lockedWaits_of_none h
  · exact lockedWaits_of_none h
  · exact acceptLock_waits s
  · exact lockedWaits_of_none ((judgeLocked_locked s).trans h)
  · exact acceptLock_waits s

theorem takeEdge_waits (h : s.due.locked = none) : LockedWaits (takeEdge s) := by
  unfold takeEdge
  split
  · exact judgeEdge_waits ((takeWrap_locked s).trans h)
  · exact lockedWaits_of_none h

theorem onRequest_locked (p : Port) (s : State) : (onRequest p s).due.locked = none :=
  takeLapse_locked (takeLocked_locked s)

theorem takes_locked (p : Port) (tag : Nat) (r : Request) (s : State) : (takes p tag r s).due.locked = none := by
  obtain ⟨u, before, resp, -, heq⟩ := takes_cases p tag r s
  obtain ⟨st, counter, seq, hshell⟩ := dispatch_shell p before r (onRequest p u)
  rw [heq, hold_due, locked_of_shell hshell]
  exact onRequest_locked p u

end Sys2Proof.Machine
end

section
/-! SUPPORT. Every command keeps every invariant (the clauses of `Sound`). -/

namespace Sys2Proof.Machine

variable {s : State}

/-! ### The state after reset -/

theorem reset_slots (i : Slot) : State.reset.slots[i] = none := get_replicate _ i

theorem reset_lanes (l : Lane) : State.reset.lanes[l] = .reset := get_replicate _ l

theorem reset_trips (t : Line) : State.reset.trips[t] = .reset := get_replicate _ t

theorem reset_sessions (p : Port) : State.reset.sessions[p] = .reset := get_replicate _ p

theorem reset_delivery (p : Port) : State.reset.delivery[p] = .reset := get_replicate _ p

theorem reset_fits (period : Nat) : FitsPeriod State.reset period := by
  refine ⟨fun l hl => ?_, fun i r hr => ?_, fun e he => nomatch he⟩
  · rw [reset_lanes] at hl
    exact absurd rfl hl
  · rw [reset_slots] at hr
    exact (Option.not_mem_none _ hr).elim

theorem reset_holders : HoldersOpen State.reset where
  lanes l p hp := by rw [reset_lanes] at hp; cases hp
  lines t p hp := by rw [reset_trips] at hp; cases hp
  informed t p hp := by
    rw [reset_trips] at hp
    exact absurd ((get_noneId p).symm.trans hp) nofun
  slots i r hr := by
    rw [reset_slots] at hr
    exact (Option.not_mem_none _ hr).elim
  entries e he := nomatch he
  reports p hp := absurd ((get_replicate false p).symm.trans hp) nofun
  flight c hc := (Option.not_mem_none _ hc).elim
  queue r hr := nomatch hr
  delivery p _ := reset_delivery p
  proposer pr hpr := (Option.not_mem_none _ hpr).elim
  electorate pr hpr := (Option.not_mem_none _ hpr).elim
  accepted pr hpr := (Option.not_mem_none _ hpr).elim
  cut m hm := nomatch hm

theorem reset_steady : Steady State.reset where
  delivery p := by rw [reset_delivery]; exact .reset
  queue := Nat.zero_le _
  list := Nat.zero_le _
  share _ := Nat.zero_le _
  rx p := by
    have hlink : State.reset.links[p] = .reset := get_replicate _ p
    rw [hlink]
    exact Nat.zero_le _
  stamp := by decide
  tb := ⟨by decide, by decide, nofun, by decide, by decide, rfl⟩
  sync := .cleared
  grace := nofun
  allowed pr hpr := (Option.not_mem_none _ hpr).elim
  response := nofun
  sessions p := by rw [reset_sessions]; rfl
  holders := reset_holders
  lanes l := by
    rw [laneSound_iff, reset_lanes]
    exact (LaneRec.soundUnder_of_free rfl).mpr rfl
  lines t := by rw [reset_trips]; exact .reset
  samples t ht := absurd ((get_replicate false t).symm.trans ht) nofun
  targets e he := nomatch he
  named i := by rw [reset_slots]; rfl
  held e he := nomatch he
  fits := reset_fits _
  fitsProposed pr hpr := (Option.not_mem_none _ hpr).elim
  nextId := ⟨Nat.le_refl 1, by decide⟩
  running pr hpr := (Option.not_mem_none _ hpr).elim
  stands pr hpr := (Option.not_mem_none _ hpr).elim
  converter := rfl

theorem reset_sound : Sound State.reset := (sound_iff_steady _).mpr ⟨reset_steady, lockedWaits_of_none rfl⟩

/-! ### Links, pins and the queue -/

/-- What is outside the blocks may change where the receive buffers stay within their bound. -/
theorem Steady.with_outside (h : Steady s) {inReset : Bool} {links : Vector Link 4} {pins : Pins} {pending : List Instr}
    (hrx : ∀ p : Port, links[p].rx.length ≤ 28) :
    Steady { s with inReset := inReset, links := links, pins := pins, pending := pending } :=
  { h with rx := hrx, holders := { h.holders with } }

theorem heldInReset_steady (s : State) : Steady (heldInReset s) := by
  refine reset_steady.with_outside fun p => ?_
  rw [get_map]
  exact Nat.zero_le _

theorem released_steady (h : Steady s) : Steady (released s) := by
  unfold released
  split
  · exact h.with_outside h.rx
  · exact h

theorem link_steady (h : Steady s) (p : Port) {f : Link → Link} (hrx : (f s.links[p]).rx.length ≤ 28) :
    Steady { s with links := update s.links p f } :=
  h.with_outside (forall_get_set (P := fun _ (l : Link) => l.rx.length ≤ 28) hrx fun q _ => h.rx q)

theorem Link.select_rx (inReset : Bool) {l : Link} (h : l.rx.length ≤ 28) : (l.select inReset).rx.length ≤ 28 := by
  unfold Link.select
  split
  · exact h
  · exact Nat.zero_le _

theorem Link.clock_rx (b : Byte) {l : Link} (h : l.rx.length ≤ 28) : (l.clock b).rx.length ≤ 28 := by
  unfold Link.clock
  split
  case isFalse => exact h
  case isTrue =>
    dsimp only
    split
    case isTrue hroom => rw [List.length_append]; exact hroom
    case isFalse => exact h

/-! ### Every command -/

theorem takes_sound (h : Sound s) (p : Port) (tag : Nat) (r : Request) : Sound (takes p tag r s) := by
  obtain ⟨hsteady, -⟩ := (sound_iff_steady s).mp h
  exact (sound_iff_steady _).mpr ⟨takes_steady hsteady p tag r, lockedWaits_of_none (takes_locked p tag r s)⟩

theorem whileRunning_sound {f : State → State} (h : Sound s) (hf : Sound s → Sound (f s)) : Sound (whileRunning f s) := by
  unfold whileRunning
  split
  · exact h
  · exact hf h

/-- A happening that keeps a state steady and leaves a SYNC_LOCKED that is not there keeps every invariant. -/
theorem happens_sound {f : State → State} (h : Sound s) (hsteady : ∀ u, Steady u → Steady (f u))
    (hwaits : ∀ u : State, u.due.locked = none → LockedWaits (f u)) : Sound (happens f s) := by
  refine whileRunning_sound h fun h => ?_
  obtain ⟨hs, -⟩ := (sound_iff_steady s).mp h
  exact (sound_iff_steady _).mpr ⟨hsteady _ (takeLocked_steady hs), hwaits _ (takeLocked_locked s)⟩

/-- The same of a happening that does not turn on a SYNC_LOCKED. -/
theorem happens_sound_of_kept {f : State → State} (h : Sound s) (hsteady : ∀ u, Steady u → Steady (f u))
    (hlocked : ∀ u : State, (f u).due.locked = u.due.locked) : Sound (happens f s) :=
  happens_sound h hsteady fun u hu => lockedWaits_of_none ((hlocked u).trans hu)

theorem endTransaction_sound (h : Sound s) (p : Port) : Sound (endTransaction p s) := by
  obtain ⟨hsteady, hwaits⟩ := (sound_iff_steady s).mp h
  have hheld (resp : Response) : Sound (hold p resp s) :=
    (sound_iff_steady _).mpr ⟨hold_steady hsteady p resp, hwaits⟩
  unfold endTransaction
  split
  · exact hheld _
  · exact hheld _
  · exact hheld _
  · exact hheld _
  · exact takes_sound h p _ _

theorem link_sound (h : Sound s) (p : Port) {f : Link → Link}
    (hrx : s.links[p].rx.length ≤ 28 → (f s.links[p]).rx.length ≤ 28) :
    Sound { s with links := update s.links p f } := by
  obtain ⟨hsteady, hwaits⟩ := (sound_iff_steady s).mp h
  exact (sound_iff_steady _).mpr ⟨link_steady hsteady p (hrx (hsteady.rx p)), hwaits⟩

theorem request_sound (h : Sound s) (p : Port) (tag : Nat) (r : Request) :
    ∃ t, exec (Request.toInstr p tag r) s = .next t ∧ Sound t :=
  ⟨_, exec_toInstr p tag r s, whileRunning_sound h fun h => takes_sound h p tag r⟩

theorem advance_locked (levels : TickPins) (s : State) : (advance levels s).due.locked = s.due.locked := rfl

theorem tick_locked (levels : TickPins) (s : State) : (advance levels (settle s)).due.locked = none := by
  rw [advance_locked, settle_locked]

/-- Every command keeps every invariant. -/
theorem exec_sound (h : Sound s) (i : Instr) : ∃ t, exec i s = .next t ∧ Sound t := by
  obtain ⟨hsteady, hwaits⟩ := (sound_iff_steady s).mp h
  cases i with
  | partReset => exact ⟨_, rfl, (sound_iff_steady _).mpr ⟨heldInReset_steady s, lockedWaits_of_none rfl⟩⟩
  | resetRelease =>
    refine ⟨_, rfl, (sound_iff_steady _).mpr ⟨released_steady hsteady, ?_⟩⟩
    unfold released
    split <;> exact hwaits
  | tick levels =>
    exact ⟨_, rfl, happens_sound h (fun u hu => advance_steady (settle_settled hu) levels)
      fun u _ => lockedWaits_of_none (tick_locked levels u)⟩
  | wrap => exact ⟨_, rfl, happens_sound_of_kept h (fun _ => takeWrap_steady) takeWrap_locked⟩
  | graceExpiry => exact ⟨_, rfl, happens_sound_of_kept h (fun _ => takeGrace_steady) takeGrace_locked⟩
  | syncEdge => exact ⟨_, rfl, happens_sound h (fun _ => takeEdge_steady) fun _ => takeEdge_waits⟩
  | commitApply => exact ⟨_, rfl, happens_sound_of_kept h (fun _ => takeCommits_steady) takeCommits_locked⟩
  | lanesResumed => exact ⟨_, rfl, happens_sound_of_kept h (fun _ => takeResume_steady) takeResume_locked⟩
  | lapse p =>
    refine ⟨_, rfl, whileRunning_sound h fun _ => ?_⟩
    exact (sound_iff_steady _).mpr ⟨takeLapse_steady hsteady p, takeLapse_waits hwaits p⟩
  | proposalCommit =>
    exact ⟨_, rfl, happens_sound_of_kept h (fun _ => takeProposalCommit_steady) takeProposalCommit_locked⟩
  | proposalExpiry =>
    exact ⟨_, rfl, happens_sound_of_kept h (fun _ => takeProposalExpiry_steady) takeProposalExpiry_locked⟩
  | slotFire => exact ⟨_, rfl, happens_sound_of_kept h (fun _ => fireDue_steady) fireDue_locked⟩
  | conversionComplete =>
    exact ⟨_, rfl, happens_sound_of_kept h (fun _ => takeCompletion_steady) takeCompletion_locked⟩
  | tripPinSample t => exact ⟨_, rfl, happens_sound_of_kept h (fun _ hu => takeSample_steady hu t) (takeSample_locked t)⟩
  | tripAssertion t =>
    exact ⟨_, rfl, happens_sound_of_kept h (fun _ hu => takeAssertion_steady hu t) (takeAssertion_locked t)⟩
  | tripDeassertion t =>
    exact ⟨_, rfl, happens_sound_of_kept h (fun _ hu => takeDeassertion_steady hu t) (takeDeassertion_locked t)⟩
  | transactionBegin p => exact ⟨_, rfl, link_sound h p (Link.select_rx _)⟩
  | byteClocked p b => exact ⟨_, rfl, link_sound h p (Link.clock_rx b)⟩
  | transactionEnd p =>
    refine ⟨_, rfl, ?_⟩
    split
    · exact endTransaction_sound h p
    · exact link_sound h p id
  | sessionOpen p tag limit threshold => exact request_sound h p tag (.sessionOpen limit threshold)
  | nop p tag => exact request_sound h p tag .nop
  | status p tag selector => exact request_sound h p tag (.status selector)
  | sessionClose p tag => exact request_sound h p tag .sessionClose
  | tbStart p tag => exact request_sound h p tag .tbStart
  | tbStop p tag => exact request_sound h p tag .tbStop
  | laneLease p tag lane => exact request_sound h p tag (.laneLease lane)
  | laneRelease p tag lane => exact request_sound h p tag (.laneRelease lane)
  | laneSet p tag lane onAt length active safe mask =>
    exact request_sound h p tag (.laneSet lane onAt length active safe mask)
  | groupBegin p tag => exact request_sound h p tag .groupBegin
  | groupEnd p tag => exact request_sound h p tag .groupEnd
  | groupCancel p tag => exact request_sound h p tag .groupCancel
  | sampleAdd p tag offset channel mode divisor phase maxWait sampleTag =>
    exact request_sound h p tag (.sampleAdd offset channel mode divisor phase maxWait sampleTag)
  | sampleRemove p tag slot => exact request_sound h p tag (.sampleRemove slot)
  | readResults p tag max => exact request_sound h p tag (.readResults max)
  | readEvents p tag max => exact request_sound h p tag (.readEvents max)
  | tripClaim p tag line => exact request_sound h p tag (.tripClaim line)
  | tripRelease p tag line => exact request_sound h p tag (.tripRelease line)
  | tripSet p tag line polarity qualify mode => exact request_sound h p tag (.tripSet line polarity qualify mode)
  | tripRearm p tag lanes => exact request_sound h p tag (.tripRearm lanes)
  | propose p tag period source window votes => exact request_sound h p tag (.propose period source window votes)
  | vote p tag id choice => exact request_sound h p tag (.vote id choice)
  | withdraw p tag id => exact request_sound h p tag (.withdraw id)

/-- A step keeps every invariant. -/
theorem step_sound {t : State} (h : Sound s) (hstep : step s = .next t) : Sound t := by
  unfold step at hstep
  cases hpending : s.pending with
  | nil =>
    simp only [hpending] at hstep
    cases hstep
    exact h
  | cons c rest =>
    simp only [hpending] at hstep
    obtain ⟨hsteady, hwaits⟩ := (sound_iff_steady s).mp h
    have hrest : Sound { s with pending := rest } :=
      (sound_iff_steady _).mpr ⟨hsteady.with_outside hsteady.rx, hwaits⟩
    obtain ⟨t', hexec, ht'⟩ := exec_sound hrest c
    rw [hexec] at hstep
    cases hstep
    exact ht'

end Sys2Proof.Machine
end

section
/-! What every step keeps: O50 to O57, each a part of `Sound`, and the state after reset, O3. -/

namespace Sys2Proof.Machine

/-- Settles O3: the tables after reset are empty, and every clause is read off its reset value. -/
theorem resetIsSound : Obligations.ResetIsSound := reset_sound

/-- Settles O50: a step keeps all of `Sound`, of which the bounds are the first part. -/
theorem stepKeepsBounds : Obligations.StepKeepsBounds := by
  intro s t h hstep
  obtain ⟨hbounds, -⟩ := step_sound h hstep
  exact hbounds

/-- Settles O51: a step keeps all of `Sound`; the timebase and the monitor stay in range (`Timebase.InRange`,
`SyncMonitor.InRange`). -/
theorem stepKeepsFrame : Obligations.StepKeepsFrame := by
  intro s t h hstep
  obtain ⟨-, hframe, -⟩ := step_sound h hstep
  exact hframe

/-- Settles O52: a step keeps all of `Sound`; whoever holds anything has an OPEN session (`HoldersOpen`), and a
SYNC_LOCKED waits only for a lapse (`LockedWaits`). -/
theorem stepKeepsSessions : Obligations.StepKeepsSessions := by
  intro s t h hstep
  obtain ⟨-, -, hsessions, -⟩ := step_sound h hstep
  exact hsessions

/-- Settles O53: a step keeps all of `Sound`; each lane stays sound under the lines in force (`LaneRec.SoundUnder`). -/
theorem stepKeepsTripSafety : Obligations.StepKeepsTripSafety := by
  intro s t h hstep
  obtain ⟨-, -, -, htrips, -⟩ := step_sound h hstep
  exact htrips

/-- Settles O54: a step keeps all of `Sound`; a slot is cleared together with its entries and staged with one. -/
theorem stepKeepsEntries : Obligations.StepKeepsEntries := by
  intro s t h hstep
  obtain ⟨-, -, -, -, hentries, -⟩ := step_sound h hstep
  exact hentries

/-- Settles O55: a step keeps all of `Sound`; what is staged fits every period that stands (`PeriodStands`). -/
theorem stepKeepsFit : Obligations.StepKeepsFit := by
  intro s t h hstep
  obtain ⟨-, -, -, -, -, hfit, -⟩ := step_sound h hstep
  exact hfit

/-- Settles O56: a step keeps all of `Sound`; a proposal stands through votes, boundaries and session ends
(`Proposal.Stands`). -/
theorem stepKeepsAgreement : Obligations.StepKeepsAgreement := by
  intro s t h hstep
  obtain ⟨-, -, -, -, -, -, hagreement, -⟩ := step_sound h hstep
  exact hagreement

/-- Settles O57: a step keeps all of `Sound`; every queued request starts in time (`StartsInTime`). -/
theorem stepKeepsConverter : Obligations.StepKeepsConverter := by
  intro s t h hstep
  obtain ⟨-, -, -, -, -, -, -, hconverter⟩ := step_sound h hstep
  exact hconverter

end Sys2Proof.Machine
end

section
/-! SUPPORT. The rows of the commands, told apart by what they may do: the reset pin, the links, the tick, a lapse, a
happening, a request as its row or carried by a transaction. -/

namespace Sys2Proof.Machine

/-- The happenings taken once a waiting SYNC_LOCKED is sent, but for the tick. -/
inductive Happening : (State → State) → Prop where
  | wrap : Happening takeWrap
  | graceExpiry : Happening takeGrace
  | syncEdge : Happening takeEdge
  | commitApply : Happening takeCommits
  | lanesResumed : Happening takeResume
  | proposalCommit : Happening takeProposalCommit
  | proposalExpiry : Happening takeProposalExpiry
  | slotFire : Happening fireDue
  | conversionComplete : Happening takeCompletion
  | tripPinSample (t : Line) : Happening (takeSample t)
  | tripAssertion (t : Line) : Happening (takeAssertion t)
  | tripDeassertion (t : Line) : Happening (takeDeassertion t)

/-- What a command makes of a state. -/
inductive Row (s : State) : Instr → State → Prop where
  | partReset : Row s .partReset (heldInReset s)
  | resetRelease : Row s .resetRelease (released s)
  | tick (levels : TickPins) : Row s (.tick levels) (happens (fun u => advance levels (settle u)) s)
  | happening {i : Instr} {f : State → State} (hf : Happening f) : Row s i (happens f s)
  | lapse (p : Port) : Row s (.lapse p) (whileRunning (takeLapse p) s)
  | selected (p : Port) : Row s (.transactionBegin p) { s with links := update s.links p (Link.select s.inReset) }
  | clocked (p : Port) (b : Byte) : Row s (.byteClocked p b) { s with links := update s.links p (Link.clock b) }
  | deselected (p : Port) (hidle : s.links[p].active = false) :
      Row s (.transactionEnd p) { s with links := update s.links p fun l => { l with selLow := false } }
  | answered (p : Port) (resp : Response) (hactive : s.links[p].active = true) :
      Row s (.transactionEnd p) (hold p resp s)
  | carried (p : Port) (tag : Nat) (r : Request) (hactive : s.links[p].active = true)
      (htaken : judgeBuffer s.links[p].rx = .taken tag r) : Row s (.transactionEnd p) (takes p tag r s)
  | request (p : Port) (tag : Nat) (r : Request) : Row s (Request.toInstr p tag r) (whileRunning (takes p tag r) s)

/-- A whole transaction's end: an answer of the link's own, or the request that it carries. -/
theorem endTransaction_row {s : State} {p : Port} (hactive : s.links[p].active = true) :
    Row s (.transactionEnd p) (endTransaction p s) := by
  unfold endTransaction
  split
  · exact .answered p _ hactive
  · exact .answered p _ hactive
  · exact .answered p _ hactive
  · exact .answered p _ hactive
  case h_5 tag r htaken => exact .carried p tag r hactive htaken

theorem request_row (s : State) (p : Port) (tag : Nat) (r : Request) :
    ∃ t, exec (Request.toInstr p tag r) s = .next t ∧ Row s (Request.toInstr p tag r) t :=
  ⟨_, exec_toInstr p tag r s, .request p tag r⟩

theorem exec_row (i : Instr) (s : State) : ∃ t, exec i s = .next t ∧ Row s i t := by
  cases i with
  | partReset => exact ⟨_, rfl, .partReset⟩
  | resetRelease => exact ⟨_, rfl, .resetRelease⟩
  | tick levels => exact ⟨_, rfl, .tick levels⟩
  | wrap => exact ⟨_, rfl, .happening .wrap⟩
  | graceExpiry => exact ⟨_, rfl, .happening .graceExpiry⟩
  | syncEdge => exact ⟨_, rfl, .happening .syncEdge⟩
  | commitApply => exact ⟨_, rfl, .happening .commitApply⟩
  | lanesResumed => exact ⟨_, rfl, .happening .lanesResumed⟩
  | lapse p => exact ⟨_, rfl, .lapse p⟩
  | proposalCommit => exact ⟨_, rfl, .happening .proposalCommit⟩
  | proposalExpiry => exact ⟨_, rfl, .happening .proposalExpiry⟩
  | slotFire => exact ⟨_, rfl, .happening .slotFire⟩
  | conversionComplete => exact ⟨_, rfl, .happening .conversionComplete⟩
  | tripPinSample t => exact ⟨_, rfl, .happening (.tripPinSample t)⟩
  | tripAssertion t => exact ⟨_, rfl, .happening (.tripAssertion t)⟩
  | tripDeassertion t => exact ⟨_, rfl, .happening (.tripDeassertion t)⟩
  | transactionBegin p => exact ⟨_, rfl, .selected p⟩
  | byteClocked p b => exact ⟨_, rfl, .clocked p b⟩
  | transactionEnd p =>
    refine ⟨_, rfl, ?_⟩
    split
    case isTrue hactive => exact endTransaction_row hactive
    case isFalse hidle => exact .deselected p (Bool.eq_false_iff.mpr hidle)
  | sessionOpen p tag limit threshold => exact request_row s p tag (.sessionOpen limit threshold)
  | nop p tag => exact request_row s p tag .nop
  | status p tag selector => exact request_row s p tag (.status selector)
  | sessionClose p tag => exact request_row s p tag .sessionClose
  | tbStart p tag => exact request_row s p tag .tbStart
  | tbStop p tag => exact request_row s p tag .tbStop
  | laneLease p tag lane => exact request_row s p tag (.laneLease lane)
  | laneRelease p tag lane => exact request_row s p tag (.laneRelease lane)
  | laneSet p tag lane onAt length active safe mask =>
    exact request_row s p tag (.laneSet lane onAt length active safe mask)
  | groupBegin p tag => exact request_row s p tag .groupBegin
  | groupEnd p tag => exact request_row s p tag .groupEnd
  | groupCancel p tag => exact request_row s p tag .groupCancel
  | sampleAdd p tag offset channel mode divisor phase maxWait sampleTag =>
    exact request_row s p tag (.sampleAdd offset channel mode divisor phase maxWait sampleTag)
  | sampleRemove p tag slot => exact request_row s p tag (.sampleRemove slot)
  | readResults p tag max => exact request_row s p tag (.readResults max)
  | readEvents p tag max => exact request_row s p tag (.readEvents max)
  | tripClaim p tag line => exact request_row s p tag (.tripClaim line)
  | tripRelease p tag line => exact request_row s p tag (.tripRelease line)
  | tripSet p tag line polarity qualify mode => exact request_row s p tag (.tripSet line polarity qualify mode)
  | tripRearm p tag lanes => exact request_row s p tag (.tripRearm lanes)
  | propose p tag period source window votes => exact request_row s p tag (.propose period source window votes)
  | vote p tag id choice => exact request_row s p tag (.vote id choice)
  | withdraw p tag id => exact request_row s p tag (.withdraw id)

/-- Every outcome of a command is one of its rows. -/
theorem row_of_exec {i : Instr} {s t : State} (h : exec i s = .next t) : Row s i t := by
  obtain ⟨t', hexec, hrow⟩ := exec_row i s
  rw [hexec] at h
  cases h
  exact hrow

/-! ### What lies outside the blocks -/

theorem takeAssertion_outside (t : Line) (s : State) : SameOutside s (takeAssertion t s) := by
  unfold takeAssertion
  split
  · exact ⟨rfl, rfl, rfl, rfl, rfl⟩
  · exact .rfl

theorem takeDeassertion_outside (t : Line) (s : State) : SameOutside s (takeDeassertion t s) := by
  unfold takeDeassertion
  split
  · exact SameOutside.trans (t := sampleTaken t s) ⟨rfl, rfl, rfl, rfl, rfl⟩ (deassertLine_outside t _)
  · exact .rfl

/-- A happening touches no pin, no link, no waiting command and not the tick stamp. -/
theorem Happening.outside {f : State → State} (hf : Happening f) (s : State) : SameOutside s (f s) := by
  cases hf with
  | wrap => exact takeWrap_outside s
  | graceExpiry => exact takeGrace_outside s
  | syncEdge => exact takeEdge_outside s
  | commitApply => exact takeCommits_outside s
  | lanesResumed => exact takeResume_outside s
  | proposalCommit => exact takeProposalCommit_outside s
  | proposalExpiry => exact takeProposalExpiry_outside s
  | slotFire => exact fireDue_outside s
  | conversionComplete => exact takeCompletion_outside s
  | tripPinSample t => exact takeSample_outside t s
  | tripAssertion t => exact takeAssertion_outside t s
  | tripDeassertion t => exact takeDeassertion_outside t s

theorem onRequest_outside (p : Port) (s : State) : SameOutside s (onRequest p s) :=
  ((takeLocked_outside s).trans (takeLapse_outside p _)).trans ⟨rfl, rfl, rfl, rfl, rfl⟩

/-- A request writes its own port's link and nothing else outside the blocks. -/
theorem takes_outside (p : Port) (tag : Nat) (r : Request) (s : State) :
    ∃ resp u, SameOutside s u ∧ takes p tag r s = hold p resp u := by
  obtain ⟨u, before, resp, hu, heq⟩ := takes_cases p tag r s
  have hbefore : SameOutside s u := by
    obtain ⟨-, rfl⟩ | ⟨-, rfl⟩ := hu
    · exact finishBoundary_outside s
    · exact .rfl
  obtain ⟨st, counter, seq, hshell⟩ := dispatch_shell p before r (onRequest p u)
  exact ⟨resp, _, (hbefore.trans (onRequest_outside p u)).trans (outside_of_shell hshell), heq⟩

theorem whileRunning_of_reset {f : State → State} {s : State} (h : s.inReset = true) : whileRunning f s = s := if_pos h

/-- What holds of a state and of what a function makes of it holds of what a happening makes of it. -/
theorem whileRunning_cases (f : State → State) (s : State) :
    (s.inReset = true ∧ whileRunning f s = s) ∨ (s.inReset = false ∧ whileRunning f s = f s) := by
  unfold whileRunning
  split
  case isTrue h => exact .inl ⟨h, rfl⟩
  case isFalse h => exact .inr ⟨Bool.eq_false_iff.mpr h, rfl⟩

end Sys2Proof.Machine
end

section
/-! The queue of waiting commands, the reset pin, and the links: O1, O2, O5, O60. -/

namespace Sys2Proof.Machine

/-- Settles O1: the two branches of a step. -/
theorem stepTakesTheFront : Obligations.StepTakesTheFront := by
  intro c rest s
  exact ⟨rfl, rfl⟩

theorem SameOutside.whileRunning {f : State → State} {s : State} (h : SameOutside s (f s)) :
    SameOutside s (whileRunning f s) := by
  obtain ⟨-, heq⟩ | ⟨-, heq⟩ := whileRunning_cases f s
  · rw [heq]; exact .rfl
  · rw [heq]; exact h

theorem SameOutside.happens {f : State → State} {s : State} (h : ∀ u, SameOutside u (f u)) :
    SameOutside s (happens f s) :=
  SameOutside.whileRunning (f := fun s => f (takeLocked s)) ((takeLocked_outside s).trans (h _))

theorem advance_outside (levels : TickPins) (s : State) :
    (advance levels s).links = s.links ∧ (advance levels s).pending = s.pending := ⟨rfl, rfl⟩

/-- A tick touches no link and no waiting command. -/
theorem tick_outside (levels : TickPins) (s : State) :
    (happens (fun u => advance levels (settle u)) s).links = s.links ∧
      (happens (fun u => advance levels (settle u)) s).pending = s.pending := by
  rw [happens]
  obtain ⟨-, heq⟩ | ⟨-, heq⟩ := whileRunning_cases (fun u => advance levels (settle (takeLocked u))) s
  · rw [heq]
    exact ⟨rfl, rfl⟩
  · obtain ⟨-, -, hlinks, -, hpending⟩ := (takeLocked_outside s).trans (settle_outside _)
    obtain ⟨hlinks', hpending'⟩ := advance_outside levels (settle (takeLocked s))
    rw [heq]
    exact ⟨hlinks'.trans hlinks, hpending'.trans hpending⟩

theorem takes_pending (p : Port) (tag : Nat) (r : Request) (s : State) : (takes p tag r s).pending = s.pending := by
  obtain ⟨resp, u, hsame, heq⟩ := takes_outside p tag r s
  obtain ⟨-, -, -, -, hpending⟩ := hsame
  rw [heq, hold_pending, hpending]

/-- Settles O2: every row leaves the queue, a happening by its frame, a request by the frame of its command. -/
theorem commandsLeaveTheQueue : Obligations.CommandsLeaveTheQueue := by
  intro i s t h
  cases row_of_exec h with
  | partReset => rfl
  | resetRelease => unfold released; split <;> rfl
  | tick levels =>
    obtain ⟨-, hpending⟩ := tick_outside levels s
    exact hpending
  | happening hf =>
    obtain ⟨-, -, -, -, hpending⟩ := SameOutside.happens (s := s) hf.outside
    exact hpending
  | lapse p =>
    obtain ⟨-, -, -, -, hpending⟩ := SameOutside.whileRunning (takeLapse_outside p s)
    exact hpending
  | selected p => rfl
  | clocked p b => rfl
  | deselected p hidle => rfl
  | answered p resp hactive => rfl
  | carried p tag r hactive htaken => exact takes_pending p tag r s
  | request p tag r =>
    obtain ⟨-, heq⟩ | ⟨-, heq⟩ := whileRunning_cases (takes p tag r) s
    · rw [heq]
    · rw [heq, takes_pending]

/-! ### The reset pin -/

/-- Of one link only the level of SELn may change. -/
def SelectOnly (a b : Link) : Prop := b.active = false ∧ b.held = a.held

theorem selectOnly_update {s : State} (hidle : ∀ p : Port, s.links[p].active = false) (p : Port) {f : Link → Link}
    (hf : SelectOnly s.links[p] (f s.links[p])) (q : Port) :
    (update s.links p f)[q].active = false ∧ (update s.links p f)[q].held = s.links[q].held := by
  rw [get_update]
  split
  case isTrue hq => subst hq; exact hf
  case isFalse => exact ⟨hidle q, rfl⟩

theorem Link.select_inReset {l : Link} (h : l.active = false) : SelectOnly l (l.select true) := by
  unfold Link.select
  split
  · exact ⟨h, rfl⟩
  · exact ⟨rfl, rfl⟩

theorem Link.clock_of_idle {l : Link} (b : Byte) (h : l.active = false) : l.clock b = l := by
  rw [Link.clock, h]
  rfl

/-- Settles O5: a happening and a request wait for the release, and on a link only SELn moves. -/
theorem nothingHappensInReset : Obligations.NothingHappensInReset := by
  intro i s t hreset hidle hnoReset hnoRelease h
  have hsame : s = { s with links := s.links } ∧
      ∀ p : Port, s.links[p].active = false ∧ s.links[p].held = s.links[p].held :=
    ⟨rfl, fun p => ⟨hidle p, rfl⟩⟩
  cases row_of_exec h with
  | partReset => exact absurd rfl hnoReset
  | resetRelease => exact absurd rfl hnoRelease
  | tick levels =>
    rw [happens, whileRunning_of_reset hreset]
    exact hsame
  | happening hf =>
    rw [happens, whileRunning_of_reset hreset]
    exact hsame
  | lapse p =>
    rw [whileRunning_of_reset hreset]
    exact hsame
  | selected p => exact ⟨rfl, selectOnly_update hidle p (by rw [hreset]; exact Link.select_inReset (hidle p))⟩
  | clocked p b =>
    refine ⟨rfl, selectOnly_update hidle p ?_⟩
    rw [Link.clock_of_idle b (hidle p)]
    exact ⟨hidle p, rfl⟩
  | deselected p _ => exact ⟨rfl, selectOnly_update hidle p ⟨hidle p, rfl⟩⟩
  | answered p resp hactive => exact absurd ((hidle p).symm.trans hactive) nofun
  | carried p tag r hactive htaken => exact absurd ((hidle p).symm.trans hactive) nofun
  | request p tag r =>
    rw [whileRunning_of_reset hreset]
    exact hsame

/-! ### The links -/

theorem hold_links_of_ne {p q : Port} (h : q ≠ p) (resp : Response) (s : State) :
    (hold p resp s).links[q] = s.links[q] := by
  change (update s.links p fun l => { l.ended with held := resp })[q] = _
  rw [get_update, if_neg (Ne.symm h)]

theorem takes_links_of_ne {p q : Port} (h : q ≠ p) (tag : Nat) (r : Request) (s : State) :
    (takes p tag r s).links[q] = s.links[q] := by
  obtain ⟨resp, u, hsame, heq⟩ := takes_outside p tag r s
  obtain ⟨-, -, hlinks, -⟩ := hsame
  rw [heq, hold_links_of_ne h, hlinks]

theorem update_links_of_ne {p q : Port} (h : q ≠ p) (f : Link → Link) (s : State) :
    (update s.links p f)[q] = s.links[q] := by
  rw [get_update, if_neg (Ne.symm h)]

/-- Settles O60: a row that writes a link is one of that link's own port. -/
theorem linksAreIndependent : Obligations.LinksAreIndependent := by
  intro i p s t h hnoReset hnoBegin hnoByte hnoEnd hnoRequest
  cases row_of_exec h with
  | partReset => exact absurd rfl hnoReset
  | resetRelease => unfold released; split <;> rfl
  | tick levels =>
    obtain ⟨hlinks, -⟩ := tick_outside levels s
    rw [hlinks]
  | happening hf =>
    obtain ⟨-, -, hlinks, -⟩ := SameOutside.happens (s := s) hf.outside
    rw [hlinks]
  | lapse q =>
    obtain ⟨-, -, hlinks, -⟩ := SameOutside.whileRunning (takeLapse_outside q s)
    rw [hlinks]
  | selected q => exact update_links_of_ne (fun hq : p = q => hnoBegin (by rw [hq])) _ s
  | clocked q b => exact update_links_of_ne (fun hq : p = q => hnoByte b (by rw [hq])) _ s
  | deselected q _ => exact update_links_of_ne (fun hq : p = q => hnoEnd (by rw [hq])) _ s
  | answered q resp _ => exact hold_links_of_ne (fun hq : p = q => hnoEnd (by rw [hq])) resp s
  | carried q tag r _ _ => exact takes_links_of_ne (fun hq : p = q => hnoEnd (by rw [hq])) tag r s
  | request q tag r =>
    obtain ⟨-, heq⟩ | ⟨-, heq⟩ := whileRunning_cases (takes q tag r) s
    · rw [heq]
    · rw [heq, takes_links_of_ne fun hq : p = q => hnoRequest r tag (by rw [hq])]

end Sys2Proof.Machine
end

section
/-! SUPPORT. What one command may do to the timebase: it stops only at a stop, and P, the source and W change to what the
standing proposal names (spec/01 R4, R9; spec/10 R160). -/

namespace Sys2Proof.Machine

/-- A timebase has the period, the source and the window that a proposal names; W stays for FREE (R9). -/
def Proposal.Names (pr : Proposal) (before after : Timebase) : Prop :=
  after.period = pr.period ∧
    match pr.source with
    | .free => after.source = .free ∧ after.window = before.window
    | .follow w => after.source = .follow ∧ after.window = w

theorem Proposal.Names.congr {pr pr' : Proposal} {a a' b : Timebase} (h : pr.Names a b) (hperiod : pr'.period = pr.period)
    (hsource : pr'.source = pr.source) (hwindow : a'.window = a.window) : pr'.Names a' b := by
  unfold Proposal.Names at h ⊢
  rw [hperiod, hsource, hwindow]
  exact h

/-- Two timebases agree on the period, the source and the window. -/
def Timebase.SameTerms (a b : Timebase) : Prop := b.period = a.period ∧ b.source = a.source ∧ b.window = a.window

theorem Proposal.Names.of_sameTerms {pr : Proposal} {a b c : Timebase} (h : pr.Names a b) (hsame : b.SameTerms c) :
    pr.Names a c := by
  obtain ⟨hperiod, hsource, hwindow⟩ := hsame
  unfold Proposal.Names at h ⊢
  rw [hperiod, hsource, hwindow]
  exact h

/-- From one state to another the timebase keeps its terms, and any proposal names what one named before; or it takes the
terms that the standing proposal named, which is over. -/
def TermsKept (s t : State) : Prop :=
  (s.tb.SameTerms t.tb ∧ ∀ pr' ∈ t.agreement.proposal, ∃ pr ∈ s.agreement.proposal,
      pr'.period = pr.period ∧ pr'.source = pr.source) ∨
    (t.agreement.proposal = none ∧ ∃ pr ∈ s.agreement.proposal, pr.Names s.tb t.tb)

/-- A running timebase stays running, and its terms move with the proposal only. -/
structure FrameMoves (s t : State) : Prop where
  running : running s = true → running t = true
  terms : TermsKept s t

theorem FrameMoves.of_eq {s t : State} (htb : t.tb = s.tb) (hag : t.agreement = s.agreement) : FrameMoves s t :=
  ⟨fun h => by rw [Machine.running, htb]; exact h,
    .inl ⟨by rw [htb]; exact ⟨rfl, rfl, rfl⟩, fun pr hpr => ⟨pr, by rw [← hag]; exact hpr, rfl, rfl⟩⟩⟩

theorem FrameMoves.rfl {s : State} : FrameMoves s s := .of_eq (Eq.refl _) (Eq.refl _)

theorem TermsKept.trans {s t u : State} (h : TermsKept s t) (h' : TermsKept t u) : TermsKept s u := by
  obtain ⟨⟨hperiod, hsource, hwindow⟩, hback⟩ | ⟨hover, pr, hpr, hnames⟩ := h
  · obtain ⟨⟨hperiod', hsource', hwindow'⟩, hback'⟩ | ⟨hover', pr', hpr', hnames'⟩ := h'
    · refine .inl ⟨⟨hperiod'.trans hperiod, hsource'.trans hsource, hwindow'.trans hwindow⟩, fun pr'' hpr'' => ?_⟩
      obtain ⟨pr', hpr', hp', hs'⟩ := hback' pr'' hpr''
      obtain ⟨pr, hpr, hp, hs⟩ := hback pr' hpr'
      exact ⟨pr, hpr, hp'.trans hp, hs'.trans hs⟩
    · obtain ⟨pr, hpr, hp, hs⟩ := hback pr' hpr'
      exact .inr ⟨hover', pr, hpr, hnames'.congr hp.symm hs.symm hwindow.symm⟩
  · obtain ⟨hsame', hback'⟩ | ⟨-, pr', hpr', -⟩ := h'
    · refine .inr ⟨?_, pr, hpr, hnames.of_sameTerms hsame'⟩
      refine Option.eq_none_iff_forall_not_mem.mpr fun pr' hpr' => ?_
      obtain ⟨pr'', hpr'', -⟩ := hback' pr' hpr'
      rw [hover] at hpr''
      exact Option.not_mem_none _ hpr''
    · rw [hover] at hpr'
      exact absurd hpr' (Option.not_mem_none _)

theorem FrameMoves.trans {s t u : State} (h : FrameMoves s t) (h' : FrameMoves t u) : FrameMoves s u :=
  ⟨fun hs => h'.running (h.running hs), h.terms.trans h'.terms⟩

/-- The terms and the proposal stay, whatever the state of a running timebase becomes. -/
theorem FrameMoves.of_running {s t : State} (hterms : s.tb.SameTerms t.tb)
    (hrun : Machine.running s = true → Machine.running t = true)
    (hag : t.agreement = s.agreement) : FrameMoves s t :=
  ⟨hrun, .inl ⟨hterms, fun pr hpr => ⟨pr, by rw [← hag]; exact hpr, Eq.refl _, Eq.refl _⟩⟩⟩

/-! ### The happenings -/

theorem takeLocked_moves (s : State) : FrameMoves s (takeLocked s) := by
  obtain ⟨d, h⟩ := takeLocked_frame s
  rw [h]
  exact .of_eq rfl rfl

theorem releaseLocked_moves (s : State) : FrameMoves s (releaseLocked s) := by
  obtain ⟨-, h⟩ | ⟨-, h⟩ := releaseLocked_cases s
  · rw [h]; exact .rfl
  · rw [h]; exact takeLocked_moves s

theorem makeBoundary_moves (k : BoundaryKind) (s : State) : FrameMoves s (makeBoundary k s) := by
  refine ⟨id, .inl ⟨⟨rfl, rfl, rfl⟩, fun pr' hpr' => ?_⟩⟩
  obtain ⟨pr, hpr, rfl⟩ := Option.mem_map.mp hpr'
  rw [Proposal.countFrame_eq]
  exact ⟨pr, hpr, rfl, rfl⟩

theorem takeWrap_moves (s : State) : FrameMoves s (takeWrap s) := by
  unfold takeWrap
  split
  · exact makeBoundary_moves .wrap s
  · exact .rfl

theorem takeGrace_moves (s : State) : FrameMoves s (takeGrace s) := by
  unfold takeGrace
  split
  · unfold graceRunsOut
    dsimp only
    split
    · exact .of_running ⟨rfl, rfl, rfl⟩ (fun _ => rfl) rfl
    · exact .of_eq rfl rfl
  · exact .rfl

theorem takeCompletion_moves (s : State) : FrameMoves s (takeCompletion s) := by
  obtain ⟨c, d, h⟩ := takeCompletion_frame s
  rw [h]
  exact .of_eq rfl rfl

theorem fireDue_moves (s : State) : FrameMoves s (fireDue s) := by
  obtain ⟨sl, es, c, d, h⟩ := fireDue_frame s
  rw [h]
  exact .of_eq rfl rfl

theorem takeSchedule_moves (s : State) : FrameMoves s (takeSchedule s) := by
  unfold takeSchedule
  split
  · exact fireDue_moves s
  · exact .rfl

theorem takeCommits_moves (s : State) : FrameMoves s (takeCommits s) := by
  unfold takeCommits
  split
  · obtain ⟨es, la, sl, c, tr, d, h⟩ := applyCommits_frame s
    rw [h]
    exact .of_eq rfl rfl
  · exact .rfl

theorem takeResume_moves (s : State) : FrameMoves s (takeResume s) := by
  obtain ⟨la, d, h⟩ := takeResume_frame s
  rw [h]
  exact .of_eq rfl rfl

theorem takeSample_moves (t : Line) (s : State) : FrameMoves s (takeSample t s) := by
  obtain ⟨la, tr, d, du, h⟩ := takeSample_frame t s
  rw [h]
  exact .of_eq rfl rfl

theorem takeAssertion_moves (t : Line) (s : State) : FrameMoves s (takeAssertion t s) := by
  unfold takeAssertion
  split
  · exact .of_eq rfl rfl
  · exact .rfl

theorem takeDeassertion_moves (t : Line) (s : State) : FrameMoves s (takeDeassertion t s) := by
  unfold takeDeassertion
  split
  · unfold deassertLine recoverLanes
    dsimp only
    split
    · exact .of_eq rfl rfl
    · exact .of_eq rfl rfl
  · exact .rfl

/-- An accepted edge locks, with the terms as they were. -/
theorem acceptLock_moves (s : State) : FrameMoves s (acceptLock s) := by
  have hlock (u : State) (sync : SyncMonitor) (due : Due) :
      FrameMoves u { u with tb := { u.tb with state := .locked }, sync := sync, due := due } :=
    .of_running ⟨rfl, rfl, rfl⟩ (fun _ => rfl) rfl
  unfold acceptLock
  dsimp only
  split
  · exact ((makeBoundary_moves _ s).trans (hlock _ _ _)).trans (releaseLocked_moves _)
  · exact (hlock s _ _).trans (takeLocked_moves _)

theorem judgeLocked_moves (s : State) : FrameMoves s (judgeLocked s) := by
  unfold judgeLocked
  split
  · split
    · split
      · exact .of_eq rfl rfl
      · exact .of_running ⟨rfl, rfl, rfl⟩ id rfl
    · exact .rfl
  · split
    · exact (makeBoundary_moves _ s).trans (.of_eq rfl rfl)
    · exact .rfl

theorem takeEdge_moves (s : State) : FrameMoves s (takeEdge s) := by
  unfold takeEdge
  split
  · unfold edgeTaken judgeEdge
    dsimp only
    have hwrap : FrameMoves s { takeWrap s with due := { (takeWrap s).due with edge := false } } :=
      (takeWrap_moves s).trans (.of_eq rfl rfl)
    split
    · exact hwrap
    · exact hwrap
    · exact hwrap.trans (acceptLock_moves _)
    · exact hwrap.trans (judgeLocked_moves _)
    · exact hwrap.trans (acceptLock_moves _)
  · exact .rfl

/-- A proposal's end leaves none, and the timebase alone. -/
theorem endProposal_moves (id : Nat) (o : ProposalOutcome) (s : State) : FrameMoves s (endProposal id o s) :=
  ⟨fun hrun => hrun, .inl ⟨⟨rfl, rfl, rfl⟩, fun _ hpr => (Option.not_mem_none _ hpr).elim⟩⟩

theorem Timebase.commit_names (tb : Timebase) (pr : Proposal) : pr.Names tb (tb.commit pr.period pr.source) := by
  unfold Proposal.Names Timebase.commit
  cases pr.source <;> cases tb.source <;> simp

theorem Timebase.commit_running {tb : Timebase} (period : Nat) (source : NewSource) (h : tb.state.running = true) :
    (tb.commit period source).state.running = true := by
  unfold Timebase.commit
  split
  · rfl
  · rfl
  · rfl
  · exact h

theorem takeProposalCommit_moves (s : State) : FrameMoves s (takeProposalCommit s) := by
  unfold takeProposalCommit
  split
  case h_1 pr _ hpr =>
    split
    · exact ⟨fun hrun => Timebase.commit_running _ _ hrun, .inr ⟨rfl, pr, hpr, s.tb.commit_names pr⟩⟩
    · exact .rfl
  case h_2 => exact .rfl

theorem takeProposalExpiry_moves (s : State) : FrameMoves s (takeProposalExpiry s) := by
  unfold takeProposalExpiry
  split
  · split
    · split
      · exact endProposal_moves _ _ s
      · exact .of_eq rfl rfl
    · exact .rfl
  · exact .rfl

theorem endSession_moves (k : EndKind) (p : Port) (s : State) : FrameMoves s (endSession k p s) := by
  obtain ⟨d, h, -⟩ := endSession_tells k p s
  rw [h]
  refine ⟨id, .inl ⟨⟨rfl, rfl, rfl⟩, fun pr' hpr' => ?_⟩⟩
  obtain ⟨pr, hpr, -, ⟨-, rfl⟩ | ⟨-, rfl⟩⟩ := mem_proposalAfterEnd hpr'
  · exact ⟨pr, hpr, rfl, rfl⟩
  · exact ⟨pr', hpr, rfl, rfl⟩

theorem takeLapse_moves (p : Port) (s : State) : FrameMoves s (takeLapse p s) := by
  unfold takeLapse
  split
  · have hlapsed : FrameMoves s (lapsePort p s) := (endSession_moves .lapse p s).trans (.of_eq rfl rfl)
    exact hlapsed.trans (releaseLocked_moves _)
  · exact .rfl

theorem takeResponses_moves (s : State) : FrameMoves s (takeResponses s) :=
  (takeCommits_moves s).trans <| (takeProposalCommit_moves _).trans <| (takeProposalExpiry_moves _).trans <|
    (takeLapse_moves 0 _).trans <| (takeLapse_moves 1 _).trans <| (takeLapse_moves 2 _).trans <|
      (takeLapse_moves 3 _).trans <| takeResume_moves _

theorem finishBoundary_moves (s : State) : FrameMoves s (finishBoundary s) :=
  ((takeLocked_moves s).trans (takeSchedule_moves _)).trans (takeResponses_moves _)

theorem settle_moves (s : State) : FrameMoves s (settle s) :=
  (takeWrap_moves s).trans <| (fireDue_moves _).trans <| (takeGrace_moves _).trans <|
    (takeCompletion_moves _).trans <| (takeEdge_moves _).trans <| (takeLocked_moves _).trans <|
      (fireDue_moves _).trans <| (takeResponses_moves _).trans <| (takeSample_moves 0 _).trans <|
        (takeSample_moves 1 _).trans <| (takeSample_moves 2 _).trans <| takeSample_moves 3 _

theorem advance_moves (levels : TickPins) (s : State) : FrameMoves s (advance levels s) := by
  have htb : (advance levels s).tb = s.tb.tick := rfl
  refine .of_running ?_ (fun hrun => ?_) rfl
  · rw [htb, Timebase.tick_eq]
    exact ⟨rfl, rfl, rfl⟩
  · rw [Machine.running, htb, Timebase.tick_eq]
    exact hrun

theorem Happening.moves {f : State → State} (hf : Happening f) (s : State) : FrameMoves s (f s) := by
  cases hf with
  | wrap => exact takeWrap_moves s
  | graceExpiry => exact takeGrace_moves s
  | syncEdge => exact takeEdge_moves s
  | commitApply => exact takeCommits_moves s
  | lanesResumed => exact takeResume_moves s
  | proposalCommit => exact takeProposalCommit_moves s
  | proposalExpiry => exact takeProposalExpiry_moves s
  | slotFire => exact fireDue_moves s
  | conversionComplete => exact takeCompletion_moves s
  | tripPinSample t => exact takeSample_moves t s
  | tripAssertion t => exact takeAssertion_moves t s
  | tripDeassertion t => exact takeDeassertion_moves t s

theorem FrameMoves.whileRunning {f : State → State} {s : State} (h : FrameMoves s (f s)) :
    FrameMoves s (whileRunning f s) := by
  obtain ⟨-, heq⟩ | ⟨-, heq⟩ := whileRunning_cases f s
  · rw [heq]; exact .rfl
  · rw [heq]; exact h

theorem FrameMoves.happens {f : State → State} {s : State} (h : ∀ u, FrameMoves u (f u)) : FrameMoves s (happens f s) :=
  FrameMoves.whileRunning (f := fun s => f (takeLocked s)) ((takeLocked_moves s).trans (h _))

/-! ### The requests -/

theorem onRequest_moves (p : Port) (s : State) : FrameMoves s (onRequest p s) :=
  ((takeLocked_moves s).trans (takeLapse_moves p _)).trans (.of_eq rfl rfl)

/-- What a proposal names after a command is what the command itself may have proposed; the terms stay. -/
theorem takes_terms (p : Port) (tag : Nat) (r : Request) (s : State) :
    s.tb.SameTerms (takes p tag r s).tb ∨ ∃ pr ∈ s.agreement.proposal, pr.Names s.tb (takes p tag r s).tb := by
  obtain ⟨u, before, resp, hu, heq⟩ := takes_cases p tag r s
  have hbefore : FrameMoves s u := by
    obtain ⟨-, rfl⟩ | ⟨-, rfl⟩ := hu
    · exact finishBoundary_moves s
    · exact .rfl
  have hsame : (onRequest p u).tb.SameTerms (takes p tag r s).tb := by
    obtain ⟨st, counter, seq, hshell⟩ := dispatch_shell p before r (onRequest p u)
    rw [heq, hold_tb, tb_of_shell hshell]
    exact ⟨rfl, rfl, rfl⟩
  obtain ⟨⟨hperiod, hsource, hwindow⟩, -⟩ | ⟨-, pr, hpr, hnames⟩ := (hbefore.trans (onRequest_moves p u)).terms
  · obtain ⟨hperiod', hsource', hwindow'⟩ := hsame
    exact .inl ⟨hperiod'.trans hperiod, hsource'.trans hsource, hwindow'.trans hwindow⟩
  · exact .inr ⟨pr, hpr, hnames.of_sameTerms hsame⟩

/-- Only `tb_stop` stops a running timebase. -/
theorem dispatch_running (p : Port) (before : Option Nat) {r : Request} (hr : r ≠ .tbStop) {s : State}
    (hrun : running s = true) : running (dispatch p before r s).1 = true := by
  have hkept (h : (dispatch p before r s).1.shell = s.shell) : running (dispatch p before r s).1 = true := by
    rw [running, tb_of_shell (tb := s.tb) h]
    exact hrun
  cases hsets : setsTimebase r with
  | false => exact hkept (dispatch_shell_of_plain p before hsets s)
  | true =>
    rw [setsTimebase, decide_eq_false hr, Bool.or_false, decide_eq_true_eq] at hsets
    subst hsets
    obtain h | ⟨hstopped, -⟩ := cmdTbStart_shell p s
    · exact hkept h
    · exact absurd (hstopped.symm.trans hrun) nofun

theorem takes_running (p : Port) (tag : Nat) {r : Request} (hr : r ≠ .tbStop) {s : State} (hrun : running s = true) :
    running (takes p tag r s) = true := by
  obtain ⟨u, before, resp, hu, heq⟩ := takes_cases p tag r s
  have hbefore : FrameMoves s u := by
    obtain ⟨-, rfl⟩ | ⟨-, rfl⟩ := hu
    · exact finishBoundary_moves s
    · exact .rfl
  rw [heq, running, hold_tb]
  exact dispatch_running p before hr ((hbefore.trans (onRequest_moves p u)).running hrun)

end Sys2Proof.Machine
end

section
/-! Only a stop stops, and only the proposal changes the terms: O58, O59. -/

namespace Sys2Proof.Machine

/-- Settles O58: every other row moves a running timebase to a running state. -/
theorem onlyAStopStops : Obligations.OnlyAStopStops := by
  intro i s t h hrun hstopped
  have hmoves (hkept : running s = true → running t = true) : False :=
    absurd (hstopped.symm.trans (hkept hrun)) nofun
  cases row_of_exec h with
  | partReset => exact .inl rfl
  | resetRelease => exact (hmoves (by unfold released; split <;> exact id)).elim
  | tick levels =>
    exact (hmoves (FrameMoves.happens fun u => (settle_moves u).trans (advance_moves levels _)).running).elim
  | happening hf => exact (hmoves (FrameMoves.happens hf.moves).running).elim
  | lapse p => exact (hmoves (FrameMoves.whileRunning (takeLapse_moves p s)).running).elim
  | selected | clocked | deselected | answered => exact (hmoves id).elim
  | carried p tag r hactive htaken =>
    by_cases hr : r = .tbStop
    · subst hr
      exact .inr (.inr ⟨p, tag, rfl, htaken⟩)
    · exact (hmoves (takes_running p tag hr)).elim
  | request p tag r =>
    by_cases hr : r = .tbStop
    · subst hr
      exact .inr (.inl ⟨p, tag, rfl⟩)
    · refine (hmoves fun hrun => ?_).elim
      obtain ⟨-, heq⟩ | ⟨-, heq⟩ := whileRunning_cases (takes p tag r) s
      · rw [heq]; exact hrun
      · rw [heq]; exact takes_running p tag hr hrun

/-- Settles O59: the terms move at a commit, to those of the proposal that stood before the command. -/
theorem onlyTheProposalChangesThePeriod : Obligations.OnlyTheProposalChangesThePeriod := by
  intro i s t h hnoReset
  have hmoves (hmoved : FrameMoves s t) : s.tb.SameTerms t.tb ∨ ∃ pr ∈ s.agreement.proposal, pr.Names s.tb t.tb := by
    obtain ⟨hsame, -⟩ | ⟨-, hnamed⟩ := hmoved.terms
    · exact .inl hsame
    · exact .inr hnamed
  change s.tb.SameTerms t.tb ∨ ∃ pr ∈ s.agreement.proposal, pr.Names s.tb t.tb
  cases row_of_exec h with
  | partReset => exact absurd rfl hnoReset
  | resetRelease => refine .inl ?_; unfold released; split <;> exact ⟨rfl, rfl, rfl⟩
  | tick levels => exact hmoves (FrameMoves.happens fun u => (settle_moves u).trans (advance_moves levels _))
  | happening hf => exact hmoves (FrameMoves.happens hf.moves)
  | lapse p => exact hmoves (FrameMoves.whileRunning (takeLapse_moves p s))
  | selected | clocked | deselected | answered => exact .inl ⟨rfl, rfl, rfl⟩
  | carried p tag r hactive htaken => exact takes_terms p tag r s
  | request p tag r =>
    obtain ⟨-, heq⟩ | ⟨-, heq⟩ := whileRunning_cases (takes p tag r) s
    · rw [heq]; exact .inl ⟨rfl, rfl, rfl⟩
    · rw [heq]; exact takes_terms p tag r s

end Sys2Proof.Machine
end

section
/-! The reset, the bytes of a transaction and its end without a request: O4, O26, O27. -/

namespace Sys2Proof.Machine

/-! ### The reset pin -/

theorem heldInReset_links (s : State) (p : Port) :
    (heldInReset s).links[p] = { Link.reset with selLow := s.links[p].selLow } := get_map _ _ p

/-- A link whose SELn is low hears no falling edge. -/
theorem Link.select_of_low {l : Link} (inReset : Bool) (h : l.selLow = true) : l.select inReset = l := if_pos h

theorem update_eq_self {α : Type} {n : Nat} {v : Vector α n} {i : Fin n} {f : α → α} (h : f v[i] = v[i]) :
    update v i f = v := set_eq_self h.symm

/-- The release, and a SELn low since before it. -/
theorem resetReleased (s : State) : Gives (exec .resetRelease (heldInReset s)) fun u =>
    u = { heldInReset s with inReset := false, pins := { (heldInReset s).pins with syncIn := true } } ∧
      ∀ p : Port, s.links[p].selLow = true → exec (.transactionBegin p) u = .next u := by
  refine ⟨_, rfl, rfl, fun p hlow => ?_⟩
  have hlink : (released (heldInReset s)).links[p].selLow = true :=
    (congrArg Link.selLow (heldInReset_links s p)).trans hlow
  have hsame : update (released (heldInReset s)).links p (Link.select (released (heldInReset s)).inReset) =
      (released (heldInReset s)).links := update_eq_self (Link.select_of_low _ hlink)
  exact congrArg (fun l => Host.Outcome.next { released (heldInReset s) with links := l }) hsame

/-- Settles O4: each block is read off the state after reset, and the release changes two pins. -/
theorem partResetAndRelease : Obligations.PartResetAndRelease := by
  intro s
  refine ⟨heldInReset s, rfl, rfl, rfl, rfl, rfl, fun p => ⟨reset_sessions p, get_replicate false p, reset_delivery p, ?_,
    ?_, ?_, ?_⟩, fun l => ⟨reset_lanes l, ?_⟩, rfl, reset_slots, rfl, reset_trips, rfl, rfl, rfl, resetReleased s⟩
  · rw [heldInReset_links]; rfl
  · rw [heldInReset_links]; rfl
  · rw [sdo, heldInReset_links]; rfl
  · have hclosed : isOpen (heldInReset s) p = false :=
      decide_eq_false (by rw [show (heldInReset s).sessions[p] = .reset from reset_sessions p]; exact nofun)
    rw [attn, hclosed]; rfl
  · have hlane : (heldInReset s).lanes[l] = .reset := reset_lanes l
    rw [laneDrive, hlane]; rfl

/-! ### The bytes of a transaction -/

theorem Link.select_of_high {l : Link} (h : l.selLow = false) :
    l.select false = { selLow := true, active := true, rx := [], clocked := 0, lastOut := none, held := l.held } := by
  rw [Link.select, h]
  rfl

theorem Link.clock_of_active {l : Link} (b : Byte) (h : l.active = true) : l.clock b =
    { l with
      rx := if l.rx.length < 28 then l.rx ++ [b] else l.rx
      clocked := l.clocked + 1
      lastOut := some (l.held.frame.getD l.clocked 0#8) } := if_pos h

theorem exec_byteClocked (p : Port) (b : Byte) (s : State) :
    exec (.byteClocked p b) s = .next { s with links := s.links.set p (s.links[p].clock b) } := rfl

/-- Settles O26: the falling edge, a byte inside and outside a transaction, and the frame of a response. -/
theorem transactionBytes : Obligations.TransactionBytes := by
  intro s p b
  refine ⟨fun hawake hhigh => ?_, fun hactive => ?_, fun hidle => ?_, fun r => ?_⟩
  · rw [← Link.select_of_high hhigh, ← hawake]
    rfl
  · rw [exec_byteClocked, Link.clock_of_active b hactive]
  · rw [exec_byteClocked, Link.clock_of_idle b hidle, set_eq_self rfl]
  · obtain ⟨tag, st, payload⟩ := r
    cases st <;> rfl

/-! ### The end of a transaction that carries no request -/

variable {s : State} {p : Port}

/-- The transaction of port p ends with a held response, and nothing else changes. -/
def Ends (s : State) (p : Port) (held : Response) : Prop :=
  exec (.transactionEnd p) s = .next { s with
    links := s.links.set p
      { selLow := false, active := false, rx := [], clocked := 0, lastOut := none, held := held } }

theorem exec_transactionEnd (hactive : s.links[p].active = true) :
    exec (.transactionEnd p) s = .next (endTransaction p s) :=
  congrArg Host.Outcome.next (if_pos hactive)

theorem ends_of_noRequest (hactive : s.links[p].active = true) (h : judgeBuffer s.links[p].rx = .noRequest) :
    Ends s p (if s.links[p].held.frame.length ≤ s.links[p].clocked then { tag := 0#8, status := .none, payload := [] }
      else s.links[p].held) := by
  rw [Ends, exec_transactionEnd hactive, endTransaction, h]
  rfl

theorem ends_of_linkError (hactive : s.links[p].active = true) {tag : Byte} {reason : LinkReason}
    (h : judgeBuffer s.links[p].rx = .linkError tag reason) :
    Ends s p { tag := tag, status := .linkError, payload := [byteOf (linkReasonCode reason)] } := by
  rw [Ends, exec_transactionEnd hactive, endTransaction, h]
  rfl

theorem ends_of_unknown (hactive : s.links[p].active = true) {tag : Byte}
    (h : judgeBuffer s.links[p].rx = .unknown tag) : Ends s p { tag := tag, status := .unknown, payload := [] } := by
  rw [Ends, exec_transactionEnd hactive, endTransaction, h]
  rfl

theorem ends_of_badLength (hactive : s.links[p].active = true) {tag : Byte} {n : Nat}
    (h : judgeBuffer s.links[p].rx = .badLength tag n) :
    Ends s p { tag := tag, status := .badLength, payload := [byteOf n] } := by
  rw [Ends, exec_transactionEnd hactive, endTransaction, h]
  rfl

section Judgement

variable {code tag len : Byte} {body : List Byte}

theorem judgeBuffer_of_idle (rest : List Byte) : judgeBuffer (0#8 :: rest) = .noRequest := rfl

theorem judgeBuffer_of_code (hcode : code ≠ 0#8) :
    judgeBuffer (code :: tag :: len :: body) = judgeRequest code tag len body := if_neg hcode

theorem judgeRequest_of_short (h : body.length ≤ len.toNat) : judgeRequest code tag len body = .linkError tag .short :=
  if_pos (Nat.lt_succ_of_le h)

/-- The byte at the place of the CRC is the CRC of those before it (R170). -/
def CrcRight (code tag len : Byte) (body : List Byte) : Prop :=
  body[len.toNat]? = some (crc8 ([code, tag, len] ++ body.take len.toNat))

theorem judgeRequest_of_wrong (h : len.toNat < body.length) (hcrc : ¬ CrcRight code tag len body) :
    judgeRequest code tag len body = .linkError tag .crc := (if_neg (by omega)).trans (if_pos hcrc)

theorem judgeRequest_of_unknown (h : len.toNat < body.length) (hcrc : CrcRight code tag len body)
    (hnone : requiredLength code = none) : judgeRequest code tag len body = .unknown tag := by
  refine (if_neg (by omega)).trans ((if_neg (not_not.mpr hcrc)).trans ?_)
  rw [hnone]

theorem judgeRequest_of_badLength (h : len.toNat < body.length) (hcrc : CrcRight code tag len body) {n : Nat}
    (hsome : requiredLength code = some n) (hlen : len.toNat ≠ n) :
    judgeRequest code tag len body = .badLength tag n := by
  refine (if_neg (by omega)).trans ((if_neg (not_not.mpr hcrc)).trans ?_)
  rw [hsome]
  exact if_pos hlen

theorem judgeRequest_of_request (h : len.toNat < body.length) (hcrc : CrcRight code tag len body)
    (hsome : requiredLength code = some len.toNat) {r : Request}
    (hpayload : decodePayload code (body.take len.toNat) = some r) :
    judgeRequest code tag len body = .taken tag.toNat r := by
  refine (if_neg (by omega)).trans ((if_neg (not_not.mpr hcrc)).trans ?_)
  rw [hsome]
  refine (if_neg (not_not.mpr rfl)).trans ?_
  rw [hpayload]

end Judgement

/-- A buffer that is no request is answered as the link's own rows say, by its first three bytes and the rest. -/
theorem ends_of_frame (hactive : s.links[p].active = true) {code tag len : Byte} {body : List Byte} (hcode : code ≠ 0#8)
    (hrx : s.links[p].rx = code :: tag :: len :: body) :
    (body.length ≤ len.toNat → Ends s p { tag := tag, status := .linkError, payload := [1#8] }) ∧
      (len.toNat < body.length →
        (¬ CrcRight code tag len body → Ends s p { tag := tag, status := .linkError, payload := [0#8] }) ∧
        (CrcRight code tag len body → requiredLength code = none →
          Ends s p { tag := tag, status := .unknown, payload := [] }) ∧
        (CrcRight code tag len body → ∀ n ∈ requiredLength code, len.toNat ≠ n →
          Ends s p { tag := tag, status := .badLength, payload := [BitVec.ofNat 8 n] })) := by
  have hjudge : judgeBuffer s.links[p].rx = judgeRequest code tag len body := by rw [hrx, judgeBuffer_of_code hcode]
  refine ⟨fun hshort => ?_, fun hwhole => ⟨fun hwrong => ?_, fun hright hnone => ?_, fun hright n hsome hlen => ?_⟩⟩
  · exact ends_of_linkError (reason := .short) hactive (hjudge.trans (judgeRequest_of_short hshort))
  · exact ends_of_linkError (reason := .crc) hactive (hjudge.trans (judgeRequest_of_wrong hwhole hwrong))
  · exact ends_of_unknown hactive (hjudge.trans (judgeRequest_of_unknown hwhole hright hnone))
  · exact ends_of_badLength hactive (hjudge.trans (judgeRequest_of_badLength hwhole hright hsome hlen))

/-- Settles O27: the judgement of the buffer row by row, each with the response of the link. -/
theorem transactionEndWithoutRequest : Obligations.TransactionEndWithoutRequest := by
  intro s p hactive
  cases hrx : s.links[p].rx with
  | nil => exact ends_of_noRequest hactive (by rw [hrx]; rfl)
  | cons code rest =>
    refine ⟨fun hidle => ?_, fun hcode => ?_⟩
    · exact ends_of_noRequest hactive (by rw [hrx, hidle]; rfl)
    · match rest, hrx with
      | [], hrx => exact ends_of_linkError (reason := .short) hactive (by rw [hrx]; exact if_neg hcode)
      | [tag], hrx => exact ends_of_linkError (reason := .short) hactive (by rw [hrx]; exact if_neg hcode)
      | tag :: len :: body, hrx => exact ends_of_frame hactive hcode hrx

end Sys2Proof.Machine
end

section
/-! Frames read back, and the CRC against its polynomial: O28 (spec/11 R170, R173). -/

namespace Sys2Proof

/-! ### Values on the wire -/

theorem toNat_byteOf {n : Nat} (h : n < 256) : (byteOf n).toNat = n := by
  rw [byteOf, BitVec.toNat_ofNat]
  exact Nat.mod_eq_of_lt h

theorem toNat_byteOf_of_fits {n : Nat} (h : fitsByte n = true) : (byteOf n).toNat = n :=
  toNat_byteOf (of_decide_eq_true h)

theorem ofWord_wordOf {n : Nat} (h : fitsWord n = true) : ofWord (byteOf (n / 256)) (byteOf n) = n := by
  have hn : n < 65536 := of_decide_eq_true h
  rw [ofWord, byteOf, byteOf, BitVec.toNat_ofNat, BitVec.toNat_ofNat]
  omega

/-- A well-formed request is read back from its code and its payload. -/
theorem decodePayload_payload {r : Request} (h : r.wellFormed = true) : decodePayload r.code r.payload = some r := by
  cases r <;> simp only [Request.wellFormed, Bool.and_eq_true, and_assoc] at h
  case nop | sessionClose | tbStart | tbStop | groupBegin | groupEnd | groupCancel => rfl
  case status => exact congrArg (fun n => some (Request.status n)) (toNat_byteOf_of_fits h)
  case laneLease => exact congrArg (fun n => some (Request.laneLease n)) (toNat_byteOf_of_fits h)
  case laneRelease => exact congrArg (fun n => some (Request.laneRelease n)) (toNat_byteOf_of_fits h)
  case sampleRemove => exact congrArg (fun n => some (Request.sampleRemove n)) (toNat_byteOf_of_fits h)
  case readResults => exact congrArg (fun n => some (Request.readResults n)) (toNat_byteOf_of_fits h)
  case readEvents => exact congrArg (fun n => some (Request.readEvents n)) (toNat_byteOf_of_fits h)
  case tripClaim => exact congrArg (fun n => some (Request.tripClaim n)) (toNat_byteOf_of_fits h)
  case tripRelease => exact congrArg (fun n => some (Request.tripRelease n)) (toNat_byteOf_of_fits h)
  case withdraw => exact congrArg (fun n => some (Request.withdraw n)) (toNat_byteOf_of_fits h)
  case tripRearm => exact congrArg (fun n => some (Request.tripRearm n)) (ofWord_wordOf h)
  case sessionOpen limit threshold =>
    obtain ⟨hlimit, hthreshold⟩ := h
    change some (Request.sessionOpen (ofWord _ _) (byteOf threshold).toNat) = _
    rw [ofWord_wordOf hlimit, toNat_byteOf_of_fits hthreshold]
  case laneSet lane onAt length active safe mask =>
    obtain ⟨hlane, hon, hlength, hactive, hsafe, hmask⟩ := h
    change some (Request.laneSet (byteOf lane).toNat (ofWord _ _) (ofWord _ _) (byteOf active).toNat (byteOf safe).toNat
      (byteOf mask).toNat) = _
    rw [toNat_byteOf_of_fits hlane, ofWord_wordOf hon, ofWord_wordOf hlength, toNat_byteOf_of_fits hactive,
      toNat_byteOf_of_fits hsafe, toNat_byteOf_of_fits hmask]
  case sampleAdd offset channel mode divisor phase maxWait tag =>
    obtain ⟨hoffset, hchannel, hmode, hdivisor, hphase, hwait, htag⟩ := h
    change some (Request.sampleAdd (ofWord _ _) (byteOf channel).toNat (byteOf mode).toNat (byteOf divisor).toNat
      (byteOf phase).toNat (byteOf maxWait).toNat (byteOf tag).toNat) = _
    rw [ofWord_wordOf hoffset, toNat_byteOf_of_fits hchannel, toNat_byteOf_of_fits hmode, toNat_byteOf_of_fits hdivisor,
      toNat_byteOf_of_fits hphase, toNat_byteOf_of_fits hwait, toNat_byteOf_of_fits htag]
  case tripSet line polarity qualify mode =>
    obtain ⟨hline, hpolarity, hqualify, hmode⟩ := h
    change some (Request.tripSet (byteOf line).toNat (byteOf polarity).toNat (byteOf qualify).toNat
      (byteOf mode).toNat) = _
    rw [toNat_byteOf_of_fits hline, toNat_byteOf_of_fits hpolarity, toNat_byteOf_of_fits hqualify,
      toNat_byteOf_of_fits hmode]
  case propose period source window votes =>
    obtain ⟨hperiod, hsource, hwindow, hvotes⟩ := h
    change some (Request.propose (ofWord _ _) (byteOf source).toNat (byteOf window).toNat (byteOf votes).toNat) = _
    rw [ofWord_wordOf hperiod, toNat_byteOf_of_fits hsource, toNat_byteOf_of_fits hwindow, toNat_byteOf_of_fits hvotes]
  case vote id choice =>
    obtain ⟨hid, hchoice⟩ := h
    change some (Request.vote (byteOf id).toNat (byteOf choice).toNat) = _
    rw [toNat_byteOf_of_fits hid, toNat_byteOf_of_fits hchoice]

/-! ### The CRC -/

/-- The register of the CRC, one bit wider, multiplied by x modulo the polynomial (R170). -/
def timesX (r : BitVec 9) : BitVec 9 := if r.getLsbD 7 then (r <<< 1) ^^^ 0x12F#9 else r <<< 1

theorem timesX_setWidth (x : Byte) : timesX (x.setWidth 9) = (crcShift x).setWidth 9 := by
  revert x
  decide

theorem foldl_timesX (l : List Nat) (x : Byte) :
    l.foldl (fun r _ => timesX r) (x.setWidth 9) = (l.foldl (fun r _ => crcShift r) x).setWidth 9 := by
  induction l generalizing x with
  | nil => rfl
  | cons a l ih => rw [List.foldl_cons, List.foldl_cons, timesX_setWidth, ih]

theorem crc8_append (bytes : List Byte) (b : Byte) : crc8 (bytes ++ [b]) = crcByte (crc8 bytes) b :=
  List.foldl_append

/-- A byte taken in is eight shifts of the register. -/
theorem crcByte_eq (r b : Byte) : crcByte r b = (List.range 8).foldl (fun r _ => crcShift r) (r ^^^ b) := rfl

theorem crcByte_self (r : Byte) : crcByte r r = 0#8 := by
  rw [crcByte, BitVec.xor_self]
  decide

end Sys2Proof

namespace Sys2Proof.Machine

/-- The body of a request frame: after the payload comes its CRC. -/
theorem frame_eq (tag : Nat) (r : Request) (extra : List Byte) :
    r.frame tag ++ extra =
      r.code :: byteOf tag :: byteOf r.payload.length :: (r.payload ++ crc8 (r.frameBody tag) :: extra) := by
  simp [Request.frame, Request.frameBody]

theorem frame_readBack {r : Request} {tag : Nat} (hr : r.wellFormed = true) (htag : tag < 256) (extra : List Byte) :
    judgeBuffer (r.frame tag ++ extra) = .taken tag r := by
  obtain ⟨hcode, hrequired, hlength⟩ := Laws.request_shape r
  have hlen : (byteOf r.payload.length).toNat = r.payload.length := toNat_byteOf (by
    have : Config.rxCapacity = 28 := rfl
    omega)
  have hcrc : CrcRight r.code (byteOf tag) (byteOf r.payload.length)
      (r.payload ++ crc8 (r.frameBody tag) :: extra) := by
    rw [CrcRight, hlen, List.getElem?_append_right (Nat.le_refl _), Nat.sub_self, List.take_left]
    rfl
  have hjudge := judgeRequest_of_request (r := r) (by rw [hlen]; simp) hcrc (by rw [hlen]; exact hrequired) (by
    rw [hlen, List.take_left]
    exact decodePayload_payload hr)
  rw [toNat_byteOf htag] at hjudge
  rw [frame_eq, judgeBuffer_of_code hcode]
  exact hjudge

/-- Settles O28: the payload is read back field by field, and the CRC is the register's remainder, one bit at a time. -/
theorem framesReadBack : Obligations.FramesReadBack := by
  refine ⟨fun r tag extra hr htag => frame_readBack hr htag extra, rfl, fun bytes b => ?_, fun bytes => ?_⟩
  · change crc8 (bytes ++ [b]) =
      ((List.range 8).foldl (fun r _ => timesX r) ((crc8 bytes ^^^ b).setWidth 9)).setWidth 8
    rw [foldl_timesX, ← crcByte_eq, ← crc8_append]
    simp
  · rw [crc8_append, crcByte_self]

end Sys2Proof.Machine
end

section
/-! SUPPORT. Requests: `session_open`, `lane_release` and `trip_set` (spec/03 R39, spec/04 R59, spec/09 R143). -/

namespace Sys2Proof.Machine

/-! ### `session_open` -/

/-- The row of `session_open`. -/
theorem exec_sessionOpen (p : Port) (tag limit threshold : Nat) (s : State) :
    exec (.sessionOpen p tag limit threshold) s =
      .next (whileRunning (takeRequest p tag fun _ => cmdSessionOpen p limit threshold) s) := rfl

theorem heardIfOpen_of_open {p : Port} {s : State} (h : s.sessions[p].state = .opened) : heardIfOpen p s = heard p s :=
  if_pos h

theorem heardIfOpen_of_not_open {p : Port} {s : State} (h : s.sessions[p].state ≠ .opened) : heardIfOpen p s = s :=
  if_neg h

section SessionOpen

variable {p : Port} {limit threshold : Nat} {s : State}

theorem cmdSessionOpen_of_range (h : limit = 0 ∨ 65535 < limit ∨ threshold = 0 ∨ 16 < threshold) :
    cmdSessionOpen p limit threshold s = refuse .range s := if_neg (by omega)

theorem cmdSessionOpen_of_open (h : 1 ≤ limit ∧ limit ≤ 65535 ∧ 1 ≤ threshold ∧ threshold ≤ 16)
    (hopen : s.sessions[p].state = .opened) : cmdSessionOpen p limit threshold s = refuse .busy s :=
  (if_pos h).trans (if_pos (isOpen_iff.mpr hopen))

theorem cmdSessionOpen_of_not_open (h : 1 ≤ limit ∧ limit ≤ 65535 ∧ 1 ≤ threshold ∧ threshold ≤ 16)
    (hopen : s.sessions[p].state ≠ .opened) : cmdSessionOpen p limit threshold s =
      okay { s with sessions := s.sessions.set p (.open_ limit threshold) } :=
  (if_pos h).trans (if_neg fun hyes => hopen (isOpen_iff.mp hyes))

end SessionOpen

/-- Settles O33: the range comes before the session's state, and the state is the one the request finds. -/
theorem sessionOpens : Obligations.SessionOpens := by
  intro p tag limit threshold s hears
  refine ⟨fun hrange => ?_, fun h1 h2 h3 h4 => ⟨fun hopen => ?_, fun hother => ?_⟩⟩
  · rw [exec_sessionOpen, takeRequest_of_verdict hears (cmdSessionOpen_of_range hrange)]
  · have hstill := (heard_sessions_self_state p s).trans hopen
    rw [exec_sessionOpen, refused, takeRequest_of_verdict hears (t := heard p s)]
    rw [heardIfOpen_of_open hopen]
    exact cmdSessionOpen_of_open ⟨h1, h2, h3, h4⟩ hstill
  · rw [exec_sessionOpen, takeRequest_of_verdict hears]
    rw [heardIfOpen_of_not_open hother]
    exact cmdSessionOpen_of_not_open ⟨h1, h2, h3, h4⟩ hother

/-! ### `lane_release` -/

/-- The row of `lane_release`. -/
theorem exec_laneRelease (p : Port) (tag lane : Nat) (s : State) :
    exec (.laneRelease p tag lane) s = .next (whileRunning (takeRequest p tag fun _ => cmdLaneRelease p lane) s) := rfl

theorem ownsLane_iff {s : State} {p : Port} {l : Lane} : ownsLane s p l = true ↔ s.lanes[l].status.owner? = some p :=
  decide_eq_true_iff

theorem exec_laneRelease_of_range {p : Port} {tag lane : Nat} {s : State} (ready : Ready s p) (hlane : 16 ≤ lane) :
    exec (.laneRelease p tag lane) s = refused p tag .range s := by
  refine exec_eq_replied_of_verdict (exec_laneRelease p tag lane s) ready ?_
  simp only [laneOf?_of_le hlane, refuse]

theorem exec_laneRelease_of_other {p : Port} {tag : Nat} {l : Lane} {s : State} (ready : Ready s p)
    (howner : s.lanes[l].status.owner? ≠ some p) :
    exec (.laneRelease p tag l.val) s = refused p tag .notOwner s := by
  refine exec_eq_replied_of_verdict (exec_laneRelease p tag l.val s) ready ?_
  have hown : ¬ ownsLane (heard p s) p l = true := fun h => howner (ownsLane_iff.mp h)
  simp only [laneOf?_val, if_neg hown, refuse]

theorem exec_laneRelease_of_owner {p : Port} {tag : Nat} {l : Lane} {s : State} (ready : Ready s p)
    (howner : s.lanes[l].status.owner? = some p) :
    exec (.laneRelease p tag l.val) s = .next (replied p tag .ok [] (releaseLane p l (heard p s))) := by
  refine exec_eq_replied_of_verdict (exec_laneRelease p tag l.val s) ready ?_
  have hown : ownsLane (heard p s) p l = true := ownsLane_iff.mpr howner
  simp only [laneOf?_val, if_pos hown, okay, okWith]

/-- The entries that the release of a lane keeps: those for another target and those of another port. -/
theorem releaseLane_keeps (p : Port) (l : Lane) (e : Entry) : (!(decide (e.port = p) && e.targetsLane l)) =
    match e.action with
    | .laneSet m _ => decide (m ≠ l) || decide (e.port ≠ p)
    | .sampleAdd _ => true
    | .sampleRemove _ => true := by
  unfold Entry.targetsLane
  cases e.action with
  | laneSet m w => simp only [Bool.not_and, decide_not, Bool.or_comm]
  | sampleAdd i => simp only [Bool.and_false, Bool.not_false]
  | sampleRemove i => simp only [Bool.and_false, Bool.not_false]

/-- Settles O38: RANGE, NOT_OWNER, and the release of an own lane. -/
theorem laneRelease : Obligations.LaneRelease := by
  intro p tag lane s ready
  refine ⟨exec_laneRelease_of_range ready, ?_⟩
  rintro l rfl
  refine ⟨exec_laneRelease_of_other ready, fun howner => ?_⟩
  rw [exec_laneRelease_of_owner ready howner, releaseLane, funext (releaseLane_keeps p l)]
  rfl

/-! ### `trip_set` -/

/-- The row of `trip_set`. -/
theorem exec_tripSet (p : Port) (tag line polarity qualify mode : Nat) (s : State) :
    exec (.tripSet p tag line polarity qualify mode) s =
      .next (whileRunning (takeRequest p tag fun _ => cmdTripSet p line polarity qualify mode) s) := rfl

theorem polarityOf?_of_le {n : Nat} (h : 2 ≤ n) : polarityOf? n = none := by
  obtain ⟨m, rfl⟩ := Nat.exists_eq_add_of_le' h
  rfl

theorem tripModeOf?_of_le {n : Nat} (h : 2 ≤ n) : tripModeOf? n = none := by
  obtain ⟨m, rfl⟩ := Nat.exists_eq_add_of_le' h
  rfl

theorem polarityOf?_of_lt {n : Nat} (h : n < 2) : polarityOf? n = some (if n = 0 then .activeHigh else .activeLow) := by
  interval_cases n <;> rfl

theorem tripModeOf?_of_lt {n : Nat} (h : n < 2) : tripModeOf? n = some (if n = 0 then .latch else .follow) := by
  interval_cases n <;> rfl

theorem tripSettingsOf?_of_range {polarity mode : Nat} (qualify : Nat) (h : 2 ≤ polarity ∨ 2 ≤ mode) :
    tripSettingsOf? polarity qualify mode = none := by
  unfold tripSettingsOf?
  obtain h | h := h
  · rw [polarityOf?_of_le h]
  · rw [tripModeOf?_of_le h]
    cases polarityOf? polarity <;> rfl

theorem tripSettingsOf?_of_lt {polarity mode : Nat} (qualify : Nat) (hp : polarity < 2) (hm : mode < 2) :
    tripSettingsOf? polarity qualify mode =
      some { polarity := if polarity = 0 then .activeHigh else .activeLow
             qualify := qualify
             mode := if mode = 0 then .latch else .follow } := by
  rw [tripSettingsOf?, polarityOf?_of_lt hp, tripModeOf?_of_lt hm]

theorem Detect.restart_eq (d : Detect) : d.restart = if d.inForce then .asserted else .idle := by
  cases d <;> rfl

theorem exec_tripSet_of_range {p : Port} {tag line polarity qualify mode : Nat} {s : State} (ready : Ready s p)
    (h : 4 ≤ line ∨ 2 ≤ polarity ∨ 2 ≤ mode) :
    exec (.tripSet p tag line polarity qualify mode) s = refused p tag .range s := by
  refine exec_eq_replied_of_verdict (exec_tripSet p tag line polarity qualify mode s) ready ?_
  obtain h | h := h
  · simp only [lineOf?_of_le h, refuse]
  · simp only [tripSettingsOf?_of_range qualify h]
    cases lineOf? line <;> rfl

section TripSet

variable {p : Port} {tag polarity qualify mode : Nat} {k : Line} {s : State}

theorem exec_tripSet_of_other (ready : Ready s p) (hp : polarity < 2) (hm : mode < 2)
    (howner : s.trips[k].ownership ≠ .owned p) :
    exec (.tripSet p tag k.val polarity qualify mode) s = refused p tag .notOwner s := by
  refine exec_eq_replied_of_verdict (exec_tripSet p tag k.val polarity qualify mode s) ready ?_
  have hown : ¬ ownsLine (heard p s) p k = true := fun h => howner (ownsLine_iff.mp h)
  simp only [lineOf?_val, tripSettingsOf?_of_lt qualify hp hm, if_neg hown, refuse]

theorem exec_tripSet_of_owner (ready : Ready s p) (hp : polarity < 2) (hm : mode < 2)
    (howner : s.trips[k].ownership = .owned p) :
    exec (.tripSet p tag k.val polarity qualify mode) s =
      .next (replied p tag .ok [byteOf s.trips[k].detect.restart.code]
        (setLine k
          { polarity := if polarity = 0 then .activeHigh else .activeLow
            qualify := qualify
            mode := if mode = 0 then .latch else .follow } (heard p s))) := by
  refine exec_eq_replied_of_verdict (exec_tripSet p tag k.val polarity qualify mode s) ready ?_
  have hown : ownsLine (heard p s) p k = true := ownsLine_iff.mpr howner
  simp only [lineOf?_val, tripSettingsOf?_of_lt qualify hp hm, if_pos hown, okWith, heard_trips]

end TripSet

/-- Settles O46: RANGE, NOT_OWNER, and the new settings on an own line. -/
theorem tripSet : Obligations.TripSet := by
  intro p tag line polarity qualify mode s ready
  refine ⟨exec_tripSet_of_range ready, ?_⟩
  rintro k rfl hp hm after
  refine ⟨exec_tripSet_of_other ready hp hm, fun howner => ?_⟩
  have hafter : s.trips[k].detect.restart = after := Detect.restart_eq _
  have hcode : byteOf after.code = if inForce s k then 2#8 else 0#8 := by
    dsimp only [after]
    split <;> rfl
  rw [exec_tripSet_of_owner ready hp hm howner, hafter, hcode, setLine, update, heard_trips, hafter]
  rfl

end Sys2Proof.Machine
end

section
/-! SUPPORT. Requests: the staging commands `lane_set` and `sample_add`, their range, fit and capacity (spec/04 R61 to
R63, spec/06 R86, R87). -/

namespace Sys2Proof.Machine

/-! ### Fit -/

/-- What must hold of the period in force and of a proposed one. -/
theorem fitsBoth_iff_both {s : State} {f : Nat → Bool} :
    fitsBoth s f = true ↔ f s.tb.period = true ∧ ∀ pr ∈ s.agreement.proposal, f pr.period = true := by
  refine fitsBoth_iff.trans ⟨forall_stands, ?_⟩
  rintro ⟨hforce, hproposed⟩ period (rfl | ⟨pr, hpr, rfl⟩)
  · exact hforce
  · exact hproposed pr hpr

theorem LaneSettings.fits_iff {w : LaneSettings} {period : Nat} :
    w.fits period = true ↔ w.onAt < period ∧ w.length ≤ period := by
  simp only [LaneSettings.fits, Bool.and_eq_true, decide_eq_true_eq, Nat.succ_le_iff]

theorem laneFits_iff {s : State} {w : LaneSettings} : fitsBoth s w.fits = true ↔
    (w.onAt < s.tb.period ∧ w.length ≤ s.tb.period) ∧
      ∀ pr ∈ s.agreement.proposal, w.onAt < pr.period ∧ w.length ≤ pr.period := by
  simp only [fitsBoth_iff_both, LaneSettings.fits_iff]

theorem slotFits_iff {s : State} {offset : Nat} : fitsBoth s (fun period => decide (offset + 1 ≤ period)) = true ↔
    offset < s.tb.period ∧ ∀ pr ∈ s.agreement.proposal, offset < pr.period := by
  simp only [fitsBoth_iff_both, decide_eq_true_eq, Nat.succ_le_iff]

/-! ### The settings of `lane_set` -/

theorem activeLevelOf?_of_le {n : Nat} (h : 2 ≤ n) : activeLevelOf? n = none := by
  obtain ⟨m, rfl⟩ := Nat.exists_eq_add_of_le' h
  rfl

theorem levelOf?_of_le {n : Nat} (h : 3 ≤ n) : levelOf? n = none := by
  obtain ⟨m, rfl⟩ := Nat.exists_eq_add_of_le' h
  rfl

theorem lineSetOf?_of_le {n : Nat} (h : 16 ≤ n) : lineSetOf? n = none := if_neg (Nat.not_lt.mpr h)

theorem activeLevelOf?_of_lt {n : Nat} (h : n < 2) : activeLevelOf? n = some (if n = 0 then .high else .low) := by
  interval_cases n <;> rfl

theorem levelOf?_of_lt {n : Nat} (h : n < 3) :
    levelOf? n = some (if n = 0 then .high else if n = 1 then .low else .hiz) := by
  interval_cases n <;> rfl

theorem settingsOf?_of_range {onAt length active safe mask : Nat} (h : 2 ≤ active ∨ 3 ≤ safe ∨ 16 ≤ mask) :
    settingsOf? onAt length active safe mask = none := by
  unfold settingsOf?
  obtain h | h | h := h
  · rw [activeLevelOf?_of_le h]
  · rw [levelOf?_of_le h]
    cases activeLevelOf? active <;> rfl
  · rw [lineSetOf?_of_le h]
    cases activeLevelOf? active with
    | none => rfl
    | some a => cases levelOf? safe <;> rfl

/-- The settings of a `lane_set` whose codes are in range. -/
def settingsNamed (onAt length active safe mask : Nat) : LaneSettings :=
  { onAt := onAt, length := length
    activeLevel := if active = 0 then .high else .low
    safeLevel := if safe = 0 then .high else if safe = 1 then .low else .hiz
    tripMask := Vector.ofFn fun k => mask.testBit k.val }

theorem settingsOf?_of_lt {onAt length active safe mask : Nat} (ha : active < 2) (hs : safe < 3) (hm : mask < 16) :
    settingsOf? onAt length active safe mask = some (settingsNamed onAt length active safe mask) := by
  rw [settingsOf?, activeLevelOf?_of_lt ha, levelOf?_of_lt hs, lineSetOf?, if_pos hm]
  rfl

/-! ### `lane_set` -/

/-- The row of `lane_set`. -/
theorem exec_laneSet (p : Port) (tag lane onAt length active safe mask : Nat) (s : State) :
    exec (.laneSet p tag lane onAt length active safe mask) s =
      .next (whileRunning (takeRequest p tag fun _ => cmdLaneSet p lane onAt length active safe mask) s) := rfl

theorem exec_laneSet_of_range {p : Port} {tag lane onAt length active safe mask : Nat} {s : State} (ready : Ready s p)
    (h : 16 ≤ lane ∨ 2 ≤ active ∨ 3 ≤ safe ∨ 16 ≤ mask) :
    exec (.laneSet p tag lane onAt length active safe mask) s = refused p tag .range s := by
  refine exec_eq_replied_of_verdict (exec_laneSet p tag lane onAt length active safe mask s) ready ?_
  obtain h | h := h
  · simp only [laneOf?_of_le h, refuse]
  · simp only [settingsOf?_of_range h]
    cases laneOf? lane <;> rfl

section StageSettings

variable {p : Port} {l : Lane} {w : LaneSettings} {s : State}

theorem stageSettings_of_other (h : s.lanes[l].status.owner? ≠ some p) :
    stageSettings p l w s = refuse .notOwner s := by
  have hown : (!ownsLane s p l) = true := by rw [ownsLane, decide_eq_false h]; rfl
  exact if_pos hown

theorem stageSettings_of_owner (h : s.lanes[l].status.owner? = some p) :
    stageSettings p l w s =
      if !fitsBoth s w.fits then refuse .doesNotFit s
      else
        match capacityRefusal s p with
        | some st => refuse st s
        | none => okay (append p (.laneSet l w) s) := by
  have hown : ¬ (!ownsLane s p l) = true := by rw [ownsLane, decide_eq_true h]; exact Bool.false_ne_true
  exact if_neg hown

theorem stageSettings_of_unfit (h : s.lanes[l].status.owner? = some p) (hfits : ¬ fitsBoth s w.fits = true) :
    stageSettings p l w s = refuse .doesNotFit s := by
  rw [stageSettings_of_owner h, if_pos (by simpa using hfits)]

theorem stageSettings_of_fit (h : s.lanes[l].status.owner? = some p) (hfits : fitsBoth s w.fits = true) :
    stageSettings p l w s =
      match capacityRefusal s p with
      | some st => refuse st s
      | none => okay (append p (.laneSet l w) s) := by
  rw [stageSettings_of_owner h, if_neg (by simp [hfits])]

end StageSettings

section LaneSet

variable {p : Port} {tag onAt length active safe mask : Nat} {l : Lane} {s t : State}

/-- `lane_set` with its parameters in range, from the verdict of the staging. -/
theorem exec_laneSet_of_verdict {st : Status} {bytes : List Byte} (ready : Ready s p) (ha : active < 2) (hs : safe < 3)
    (hm : mask < 16)
    (hstage : stageSettings p l (settingsNamed onAt length active safe mask) (heard p s) =
      (t, { status := st, payload := bytes })) :
    exec (.laneSet p tag l.val onAt length active safe mask) s = .next (replied p tag st bytes t) := by
  refine exec_eq_replied_of_verdict (exec_laneSet p tag l.val onAt length active safe mask s) ready ?_
  simp only [laneOf?_val, settingsOf?_of_lt ha hs hm, hstage]

end LaneSet

/-- Settles O39: one check after the other, in the order of R61 to R63 and R71. -/
theorem laneSet : Obligations.LaneSet := by
  intro p tag lane onAt length active safe mask s ready run fits
  refine ⟨exec_laneSet_of_range ready, ?_⟩
  rintro l rfl ha hs hm
  refine ⟨fun howner => exec_laneSet_of_verdict ready ha hs hm (stageSettings_of_other (s := heard p s) howner),
    fun howner => ?_⟩
  have hiff : fitsBoth (heard p s) (settingsNamed onAt length active safe mask).fits = true ↔ fits := laneFits_iff
  have hrefused {st : Status} (hfits : fits) (hcapacity : capacityRefusal (heard p s) p = some st) :
      run = refused p tag st s := by
    refine exec_laneSet_of_verdict ready ha hs hm ((stageSettings_of_fit (s := heard p s) howner (hiff.mpr hfits)).trans ?_)
    rw [hcapacity]
    rfl
  refine ⟨fun hunfit => ?_, fun hfits hfull => ?_, fun hfits hroom hshare => ?_, fun hfits hroom hshare => ?_⟩
  · exact exec_laneSet_of_verdict ready ha hs hm (stageSettings_of_unfit howner fun h => hunfit (hiff.mp h))
  · exact hrefused hfits (capacityRefusal_of_full (s := heard p s) hfull)
  · exact hrefused hfits (capacityRefusal_of_share (s := heard p s) hroom hshare)
  · refine exec_laneSet_of_verdict ready ha hs hm ((stageSettings_of_fit (s := heard p s) howner (hiff.mpr hfits)).trans ?_)
    rw [capacityRefusal_of_room (s := heard p s) hroom hshare]
    exact congrArg okay (append_of_heard_sessions _ rfl)

/-! ### `sample_add` -/

/-- The row of `sample_add`. -/
theorem exec_sampleAdd (p : Port) (tag offset channel mode divisor phase maxWait sampleTag : Nat) (s : State) :
    exec (.sampleAdd p tag offset channel mode divisor phase maxWait sampleTag) s =
      .next (whileRunning
        (takeRequest p tag fun _ => cmdSampleAdd p offset channel mode divisor phase maxWait sampleTag) s) := rfl

theorem channelOf?_of_le {n : Nat} (h : 8 ≤ n) : channelOf? n = none := dif_neg (Nat.not_lt.mpr h)

theorem channelOf?_val (c : Channel) : channelOf? c.val = some c := dif_pos c.isLt

/-- A mode code with the divisor and phase that DIVIDED judges (R86). -/
def modeInRange (mode divisor phase : Nat) : Prop :=
  mode < 3 ∧ (mode = 2 → 2 ≤ divisor ∧ divisor ≤ 255 ∧ phase < divisor)

theorem slotModeOf?_of_range {mode divisor phase : Nat} (h : ¬ modeInRange mode divisor phase) :
    slotModeOf? mode divisor phase = none := by
  match mode with
  | 0 => exact absurd ⟨by omega, nofun⟩ h
  | 1 => exact absurd ⟨by omega, nofun⟩ h
  | 2 => exact if_neg fun hdiv => h ⟨by omega, fun _ => hdiv⟩
  | n + 3 => rfl

theorem slotModeOf?_of_inRange {mode divisor phase : Nat} (h : modeInRange mode divisor phase) :
    slotModeOf? mode divisor phase =
      some (if mode = 0 then .once else if mode = 1 then .every else .divided divisor phase) := by
  obtain ⟨hlt, hdiv⟩ := h
  match mode with
  | 0 => rfl
  | 1 => rfl
  | 2 => exact if_pos (hdiv rfl)
  | n + 3 => omega

theorem emptySlot?_eq_none {s : State} (h : ∀ i : Slot, s.slots[i].isSome = true) : emptySlot? s = none := by
  refine List.find?_eq_none.mpr fun i _ hempty => ?_
  have hi := h i
  rw [Option.isSome_eq_false_iff.mpr hempty] at hi
  cases hi

/-- The lowest EMPTY slot is the one below which every slot is taken. -/
theorem emptySlot?_eq_some {s : State} {i : Slot} (hempty : s.slots[i] = none)
    (hbelow : ∀ j : Slot, j < i → s.slots[j].isSome = true) : emptySlot? s = some i := by
  cases hfound : emptySlot? s with
  | none =>
    have := List.find?_eq_none.mp hfound i (List.mem_finRange i)
    rw [hempty] at this
    exact absurd rfl this
  | some j =>
    obtain hji | rfl | hij := lt_trichotomy j i
    · have hj := hbelow j hji
      rw [emptySlot?_some hfound] at hj
      cases hj
    · rfl
    · have hno := (List.find?_eq_some_iff_getElem.mp hfound).2
      obtain ⟨n, hn, hget, hfirst⟩ := hno
      have hnj : n = j.val := by simpa [List.getElem_finRange, Fin.ext_iff] using hget
      have := hfirst i.val (hnj ▸ hij)
      rw [List.getElem_finRange] at this
      simp [hempty] at this

section StageSlot

variable {p : Port} {r : SlotRec} {i : Slot} {s : State}

theorem stageSlot_of_full (h : emptySlot? s = none) : stageSlot p r s = refuse .tableFull s := by
  rw [stageSlot, h]

theorem stageSlot_of_unfit (h : emptySlot? s = some i)
    (hfits : ¬ fitsBoth s (fun period => decide (r.offset + 1 ≤ period)) = true) :
    stageSlot p r s = refuse .doesNotFit s := by
  rw [stageSlot, h]
  exact if_pos (by simpa using hfits)

theorem stageSlot_of_fit (h : emptySlot? s = some i)
    (hfits : fitsBoth s (fun period => decide (r.offset + 1 ≤ period)) = true) :
    stageSlot p r s =
      match capacityRefusal s p with
      | some st => refuse st s
      | none => okWith [byteOf i.val] (append p (.sampleAdd i) { s with slots := s.slots.set i (some r) }) := by
  rw [stageSlot, h]
  exact if_neg (by rw [hfits]; exact Bool.false_ne_true)

end StageSlot

theorem exec_sampleAdd_of_range {p : Port} {tag offset channel mode divisor phase maxWait sampleTag : Nat} {s : State}
    (ready : Ready s p) (h : 8 ≤ channel ∨ ¬ modeInRange mode divisor phase) :
    exec (.sampleAdd p tag offset channel mode divisor phase maxWait sampleTag) s = refused p tag .range s := by
  refine exec_eq_replied_of_verdict (exec_sampleAdd p tag offset channel mode divisor phase maxWait sampleTag s) ready ?_
  obtain h | h := h
  · simp only [channelOf?_of_le h, refuse]
  · simp only [slotModeOf?_of_range h]
    cases channelOf? channel <;> rfl

/-- `sample_add` with its parameters in range, from the verdict of the staging. -/
theorem exec_sampleAdd_of_verdict {p : Port} {tag offset mode divisor phase maxWait sampleTag : Nat} {c : Channel}
    {s t : State} {st : Status} {bytes : List Byte} (ready : Ready s p) (hmode : modeInRange mode divisor phase)
    (hstage : stageSlot p
      (stagedRec p offset c (if mode = 0 then .once else if mode = 1 then .every else .divided divisor phase) maxWait
        sampleTag) (heard p s) = (t, { status := st, payload := bytes })) :
    exec (.sampleAdd p tag offset c.val mode divisor phase maxWait sampleTag) s = .next (replied p tag st bytes t) := by
  refine exec_eq_replied_of_verdict (exec_sampleAdd p tag offset c.val mode divisor phase maxWait sampleTag s) ready ?_
  simp only [channelOf?_val, slotModeOf?_of_inRange hmode, hstage]

/-- Settles O41: one check after the other, in the order of R86 and R71. -/
theorem sampleAdd : Obligations.SampleAdd := by
  intro p tag offset channel mode divisor phase maxWait sampleTag s ready run inRange fits
  refine ⟨fun hrange => ?_, fun hrange hfull => ?_, ?_⟩
  · refine exec_sampleAdd_of_range ready ?_
    by_cases hchannel : channel < 8
    · exact .inr fun hmode => hrange ⟨hchannel, hmode⟩
    · exact .inl (Nat.not_lt.mp hchannel)
  · obtain ⟨hchannel, hmode⟩ := hrange
    exact exec_sampleAdd_of_verdict (c := ⟨channel, hchannel⟩) ready hmode
      (stageSlot_of_full (s := heard p s) (emptySlot?_eq_none hfull))
  rintro c rfl ⟨-, hmode⟩ i hempty hbelow
  have hfound : emptySlot? (heard p s) = some i := emptySlot?_eq_some hempty hbelow
  have hiff : fitsBoth (heard p s) (fun period => decide (offset + 1 ≤ period)) = true ↔ fits := slotFits_iff
  have hrefused {st : Status} (hfits : fits) (hcapacity : capacityRefusal (heard p s) p = some st) :
      run = refused p tag st s := by
    refine exec_sampleAdd_of_verdict ready hmode ((stageSlot_of_fit hfound (hiff.mpr hfits)).trans ?_)
    rw [hcapacity]
    rfl
  refine ⟨fun hunfit => ?_, fun hfits hfull => ?_, fun hfits hroom hshare => ?_, fun hfits hroom hshare => ?_⟩
  · exact exec_sampleAdd_of_verdict ready hmode (stageSlot_of_unfit hfound fun h => hunfit (hiff.mp h))
  · exact hrefused hfits (capacityRefusal_of_full (s := heard p s) hfull)
  · exact hrefused hfits (capacityRefusal_of_share (s := heard p s) hroom hshare)
  · refine exec_sampleAdd_of_verdict ready hmode ((stageSlot_of_fit hfound (hiff.mpr hfits)).trans ?_)
    rw [capacityRefusal_of_room (s := heard p s) hroom hshare]
    exact congrArg (okWith [byteOf i.val]) (append_of_heard_sessions _ rfl)

end Sys2Proof.Machine
end

section
/-! SUPPORT. The bytes of records, and reading the queues (spec/08 R127, R128, spec/11 R172, R175, R176). -/

namespace Sys2Proof.Machine

/-! ### Sets and flags as bytes -/

/-- A sum over the members that a test picks out is one over all, the others counting 0. -/
theorem sum_map_filter {α : Type} (test : α → Bool) (f : α → Nat) (ids : List α) :
    ((ids.filter test).map f).sum = (ids.map fun i => if test i then f i else 0).sum := by
  induction ids with
  | nil => rfl
  | cons i rest ih => cases hi : test i <;> simp [hi, ih]

/-- The number of a set, summed over the members it holds or over all (R172). -/
theorem setValue_eq_bits {n : Nat} (v : IdSet n) : setValue v = bits v :=
  sum_map_filter (fun i : Fin n => v[i]) (fun i => 2 ^ i.val) (List.finRange n)

theorem setByte_eq_bits (v : IdSet 4) : setByte v = BitVec.ofNat 8 (bits v) := by
  rw [setByte, setValue_eq_bits]
  rfl

theorem laneSetBytes_eq_bits (v : LaneSet) :
    laneSetBytes v = [BitVec.ofNat 8 (bits v / 256), BitVec.ofNat 8 (bits v)] := by
  rw [laneSetBytes, setValue_eq_bits]
  rfl

theorem flagByte_eq (b : Bool) : [flagByte b] = if b then [1#8] else [0#8] := by cases b <;> rfl

/-! ### `read_results` and `read_events` -/

theorem maxInRange_iff {n : Nat} : maxInRange n = true ↔ 1 ≤ n ∧ n ≤ 4 := by
  simp only [maxInRange, Bool.and_eq_true, decide_eq_true_eq]

/-- The row of `read_results`. -/
theorem exec_readResults (p : Port) (tag max : Nat) (s : State) :
    exec (.readResults p tag max) s = .next (whileRunning (takeRequest p tag fun _ => cmdReadResults p max) s) := rfl

/-- The row of `read_events`. -/
theorem exec_readEvents (p : Port) (tag max : Nat) (s : State) :
    exec (.readEvents p tag max) s = .next (whileRunning (takeRequest p tag fun _ => cmdReadEvents p max) s) := rfl

theorem resultsPayload_eq (d : Delivery) (n : Nat) : resultsPayload d n =
    [BitVec.ofNat 8 (min n d.results.length), BitVec.ofNat 8 (d.results.length - n), BitVec.ofNat 8 d.lostResults]
      ++ (d.results.take n).flatMap ResultRec.bytes := by
  rw [resultsPayload, List.length_take, List.length_drop]
  rfl

theorem eventsPayload_eq (d : Delivery) (n : Nat) : eventsPayload d n =
    [BitVec.ofNat 8 (min n d.events.length), BitVec.ofNat 8 (d.events.length - n), BitVec.ofNat 8 d.lostEvents]
      ++ (d.events.take n).flatMap EventRec.bytes := by
  rw [eventsPayload, List.length_take, List.length_drop]
  rfl

section Reads

variable {p : Port} {tag max : Nat} {s : State}

theorem exec_reads_of_range (ready : Ready s p) (h : max = 0 ∨ 4 < max) :
    exec (.readResults p tag max) s = refused p tag .range s ∧
      exec (.readEvents p tag max) s = refused p tag .range s := by
  have hout : ¬ maxInRange max = true := fun hin => by have := maxInRange_iff.mp hin; omega
  exact ⟨exec_eq_replied_of_verdict (exec_readResults p tag max s) ready (if_neg hout),
    exec_eq_replied_of_verdict (exec_readEvents p tag max s) ready (if_neg hout)⟩

theorem exec_readResults_of_inRange (ready : Ready s p) (h : 1 ≤ max ∧ max ≤ 4) :
    exec (.readResults p tag max) s = .next (replied p tag .ok (resultsPayload s.delivery[p] max)
      { heard p s with
        delivery := s.delivery.set p { s.delivery[p] with results := s.delivery[p].results.drop max } }) :=
  exec_eq_replied_of_verdict (exec_readResults p tag max s) ready (if_pos (maxInRange_iff.mpr h))

theorem exec_readEvents_of_inRange (ready : Ready s p) (h : 1 ≤ max ∧ max ≤ 4) :
    exec (.readEvents p tag max) s = .next (replied p tag .ok (eventsPayload s.delivery[p] max)
      { heard p s with
        delivery := s.delivery.set p { s.delivery[p] with events := s.delivery[p].events.drop max } }) :=
  exec_eq_replied_of_verdict (exec_readEvents p tag max s) ready (if_pos (maxInRange_iff.mpr h))

end Reads

/-- Settles O43: the two reads are one rule each; a record's bytes are read off its kind, field by field. -/
theorem queuesRead : Obligations.QueuesRead := by
  refine ⟨fun p tag max s ready => ⟨exec_reads_of_range ready, fun hlow hhigh => ⟨?results, ?events⟩⟩,
    fun r => ?resultBytes, fun r => ?eventBytes⟩
  case results =>
    rw [exec_readResults_of_inRange ready ⟨hlow, hhigh⟩, resultsPayload_eq]
  case events =>
    rw [exec_readEvents_of_inRange ready ⟨hlow, hhigh⟩, eventsPayload_eq]
  case resultBytes =>
    obtain ⟨tag, slot, channel, seq, offset, status, lost⟩ := r
    cases status with
    | ok value wait => rfl
    | missed reason => cases reason <;> rfl
    | aborted => rfl
  case eventBytes =>
    obtain ⟨event, seq, lost⟩ := r
    cases event with
    | timebaseStarted | timebaseStopped | syncLost | portLapsed | groupApplied | tripCleared => rfl
    | syncLocked first => cases first <;> rfl
    | trip k lanes => simp only [EventRec.bytes, Event.fieldBytes, laneSetBytes_eq_bits]; rfl
    | lanesResumed lanes => simp only [EventRec.bytes, Event.fieldBytes, laneSetBytes_eq_bits]; rfl
    | proposalOpened id p period source votes voter => cases source <;> cases voter <;> rfl
    | proposalEnded id outcome => cases outcome <;> rfl

end Sys2Proof.Machine
end

section
/-! SUPPORT. `trip_release` and `propose` (spec/09 R142, spec/10 R152, R154, R162). -/

namespace Sys2Proof.Machine

/-- Hearing a port does not touch the state of any session. -/
theorem heard_sessions_state (p q : Port) (s : State) : (heard p s).sessions[q].state = s.sessions[q].state := by
  have hset : (heard p s).sessions[q] = _ := get_set s.sessions p q _
  rw [hset]
  split
  case isTrue hpq => rw [hpq]
  case isFalse => rfl

/-! ### `trip_release` -/

/-- The row of `trip_release`. -/
theorem exec_tripRelease (p : Port) (tag line : Nat) (s : State) :
    exec (.tripRelease p tag line) s = .next (whileRunning (takeRequest p tag fun _ => cmdTripRelease p line) s) := rfl

theorem namedByForeign_iff {s : State} {p : Port} {k : Line} : namedByForeign s p k = true ↔
    ∃ l : Lane, s.lanes[l].status.owner? ≠ some p ∧ s.lanes[l].settings.tripMask[k] = true := by
  simp only [namedByForeign, someId_eq_true, ownsLane, Bool.and_eq_true, Bool.not_eq_true', decide_eq_false_iff_not]

theorem exec_tripRelease_of_range {p : Port} {tag line : Nat} {s : State} (ready : Ready s p) (h : 4 ≤ line) :
    exec (.tripRelease p tag line) s = refused p tag .range s := by
  refine exec_eq_replied_of_verdict (exec_tripRelease p tag line s) ready ?_
  simp only [lineOf?_of_le h, refuse]

section TripRelease

variable {p : Port} {tag : Nat} {k : Line} {s : State}

theorem exec_tripRelease_of_other (ready : Ready s p) (howner : s.trips[k].ownership ≠ .owned p) :
    exec (.tripRelease p tag k.val) s = refused p tag .notOwner s := by
  refine exec_eq_replied_of_verdict (exec_tripRelease p tag k.val s) ready ?_
  have hown : ownsLine (heard p s) p k = false := Bool.eq_false_iff.mpr fun h => howner (ownsLine_iff.mp h)
  simp only [lineOf?_val, hown, Bool.not_false, if_true, refuse]

theorem exec_tripRelease_of_named (ready : Ready s p) (howner : s.trips[k].ownership = .owned p)
    (hnamed : namedByForeign s p k = true) :
    exec (.tripRelease p tag k.val) s = refused p tag .inUse s := by
  refine exec_eq_replied_of_verdict (exec_tripRelease p tag k.val s) ready ?_
  have hown : ownsLine (heard p s) p k = true := ownsLine_iff.mpr howner
  have hnamed' : namedByForeign (heard p s) p k = true := hnamed
  simp only [lineOf?_val, hown, hnamed', Bool.not_true, Bool.false_eq_true, if_true, if_false, refuse]

theorem exec_tripRelease_of_free (ready : Ready s p) (howner : s.trips[k].ownership = .owned p)
    (hnamed : namedByForeign s p k = false) :
    exec (.tripRelease p tag k.val) s = .next (replied p tag .ok
      (laneSetBytes (setOf fun l => rearmedByRelease s p k l)) (releaseLine p k (heard p s))) := by
  refine exec_eq_replied_of_verdict (exec_tripRelease p tag k.val s) ready ?_
  have hown : ownsLine (heard p s) p k = true := ownsLine_iff.mpr howner
  have hnamed' : namedByForeign (heard p s) p k = false := hnamed
  simp only [lineOf?_val, hown, hnamed', Bool.not_true, Bool.false_eq_true, if_false, okWith]
  rfl

/-- What grants lane l its rearm_pending at the release of line k, leaving aside whether it holds it already (R142). -/
def grantedByRelease (s : State) (p : Port) (k : Line) (l : Lane) : Bool :=
  decide (s.lanes[l].status.owner? = some p) && s.lanes[l].status.cause[k] &&
    decide (∀ j : Line, j ≠ k → s.lanes[l].settings.tripMask[j] = true → inForce s j = false) &&
    decide (∀ j : Line, j ≠ k → s.lanes[l].status.cause[j] = true → s.trips[j].settings.mode = .follow)

theorem not_anyInForce_erase (s : State) (k : Line) (mask : LineSet) :
    (!anyInForce s (eraseId mask k)) = decide (∀ j : Line, j ≠ k → mask[j] = true → inForce s j = false) := by
  rw [Bool.eq_iff_iff, Bool.not_eq_true', decide_eq_true_eq, ← Bool.not_eq_true, anyInForce, someId_eq_true]
  simp only [get_eraseId, Bool.and_eq_true, Bool.not_eq_true', decide_eq_false_iff_not, not_exists, not_and,
    Bool.not_eq_true]
  exact ⟨fun h j hj hm => h j ⟨hm, hj⟩, fun h j hj => h j hj.2 hj.1⟩

theorem not_latched_erase (s : State) (k : Line) (cause : LineSet) :
    (!latched s (eraseId cause k)) =
      decide (∀ j : Line, j ≠ k → cause[j] = true → s.trips[j].settings.mode = .follow) := by
  have hmode (j : Line) : ¬ s.trips[j].settings.mode = .latch ↔ s.trips[j].settings.mode = .follow := by
    cases s.trips[j].settings.mode <;> simp
  rw [Bool.eq_iff_iff, Bool.not_eq_true', decide_eq_true_eq, ← Bool.not_eq_true, latched, someId_eq_true]
  simp only [get_eraseId, Bool.and_eq_true, Bool.not_eq_true', decide_eq_false_iff_not, not_exists, not_and,
    decide_eq_true_eq, hmode]
  exact ⟨fun h j hj hm => h j ⟨hm, hj⟩, fun h j hj => h j hj.2 hj.1⟩

theorem rearmedByRelease_eq (s : State) (p : Port) (k : Line) (l : Lane) :
    rearmedByRelease s p k l = (grantedByRelease s p k l && !s.lanes[l].status.rearm) := by
  rw [rearmedByRelease, not_anyInForce_erase, not_latched_erase, grantedByRelease, ownsLane,
    Bool.and_right_comm _ (!_), Bool.and_right_comm _ (!_)]

/-- An own lane after the release of line k (R142). -/
theorem laneAfterRelease_of_owner {l : Lane} (howner : s.lanes[l].status.owner? = some p) :
    laneAfterRelease s p k l =
      { settings := { s.lanes[l].settings with tripMask := s.lanes[l].settings.tripMask.set k false }
        status :=
          match s.lanes[l].status with
          | .tripped q cause rearm => .tripped q (cause.set k false) (rearm || grantedByRelease s p k l)
          | .free => .free
          | .leased q => .leased q
          | .orphaned => .orphaned } := by
  rw [laneAfterRelease, if_pos (ownsLane_iff.mpr howner), rearmedByRelease_eq]
  cases hst : s.lanes[l].status with
  | free => rw [hst] at howner; cases howner
  | orphaned => rw [hst] at howner; cases howner
  | leased q =>
    have hwithout := LaneRec.without_of_leased (t := k) hst
    rw [hwithout, eraseId_eq_set]
    split <;> rfl
  | tripped q cause rearm =>
    rw [LaneRec.without_of_tripped (t := k) hst, eraseId_eq_set, eraseId_eq_set]
    cases rearm <;> cases grantedByRelease s p k l <;> rfl

theorem laneAfterRelease_of_other {l : Lane} (howner : s.lanes[l].status.owner? ≠ some p) :
    laneAfterRelease s p k l = s.lanes[l] := if_neg fun h => howner (ownsLane_iff.mp h)

/-- Releasing a line in force tells its informed ports; releasing another tells nobody (R142). -/
theorem releaseLine_delivery (q : Port) : (releaseLine p k s).delivery[q] =
    if inForce s k = true ∧ s.trips[k].informed[q] = true ∧ s.sessions[q].state = .opened then
      s.delivery[q].pushEvent (.tripCleared k) s.tb.seq
    else s.delivery[q] := by
  have hfield : (releaseLine p k s).delivery = (if inForce s k then clearTrip k s else s).delivery := rfl
  rw [hfield]
  by_cases hforce : inForce s k = true
  · rw [if_pos hforce, clearTrip, Fin.getElem_fin, emit_delivery]
    by_cases hin : s.trips[k].informed[q] = true <;> by_cases hopen : s.sessions[q].state = .opened <;>
      simp_all [isOpen]
  · rw [if_neg hforce, if_neg fun h => hforce h.1]

end TripRelease

/-- Settles O45: RANGE, NOT_OWNER, IN_USE, and the release, whose lanes are `laneAfterRelease_of_owner`. -/
theorem tripRelease : Obligations.TripRelease := by
  intro p tag line s ready
  refine ⟨exec_tripRelease_of_range ready, ?_⟩
  rintro k rfl foreign
  refine ⟨exec_tripRelease_of_other ready, fun howner hforeign => ?_, fun howner hforeign => ?_⟩
  · exact exec_tripRelease_of_named ready howner (namedByForeign_iff.mpr hforeign)
  have hnamed : namedByForeign s p k = false := Bool.eq_false_iff.mpr fun h => hforeign (namedByForeign_iff.mp h)
  refine ⟨_, exec_tripRelease_of_free ready howner hnamed, ?_⟩
  beta_reduce
  intro granted
  obtain ⟨d, hd, -⟩ := releaseLine_tells p k (heard p s)
  refine ⟨fun l => ?lane, ?trips, fun q => ?told, ?link, ?frame⟩
  case lane =>
    refine (congrArg (fun t : State => t.lanes[l]) hd).trans ((get_tabulate _ l).trans ?_)
    split
    case isTrue hown => exact laneAfterRelease_of_owner (s := heard p s) hown
    case isFalse hother => exact laneAfterRelease_of_other (s := heard p s) hother
  case trips => rw [hd]; rfl
  case told =>
    have htold := releaseLine_delivery (p := p) (k := k) (s := heard p s) q
    rw [heard_sessions_state] at htold
    exact htold
  case link => rw [hd, funext (rearmedByRelease_eq s p k)]; rfl
  case frame => rw [hd]; rfl

end Sys2Proof.Machine
end

section
/-! SUPPORT. `propose` (spec/10 R152, R154, R162). -/

namespace Sys2Proof.Machine

/-! ### Bound ports and the electorate -/

theorem ownsSlot_iff {s : State} {p : Port} {i : Slot} : ownsSlot s p i = true ↔ ∃ r ∈ s.slots[i], r.owner = p := by
  unfold ownsSlot
  cases s.slots[i] <;> simp

/-- A port is bound as R50 says it. -/
theorem bound_iff {s : State} {q : Port} : bound s q = true ↔ Bound s q := by
  simp only [bound, Bound, Bool.or_eq_true, someId_eq_true, ownsLane, ownsLine, decide_eq_true_eq, ownsSlot_iff,
    or_assoc]

theorem running_eq_false_iff {s : State} : running s = false ↔ s.tb.state = .stopped := by
  unfold running
  cases s.tb.state <;> simp [TbState.running]

theorem electorateOf_getElem (s : State) (p q : Port) :
    (electorateOf s p)[q] = true ↔ Bound s q ∨ q = p := by
  rw [electorateOf, get_setOf, Bool.or_eq_true, decide_eq_true_eq, bound_iff]

/-- The electorate is the only set that holds the bound ports and the requester. -/
theorem eq_electorateOf {s : State} {p : Port} {electorate : PortSet}
    (h : ∀ q : Port, electorate[q] = true ↔ Bound s q ∨ q = p) : electorate = electorateOf s p :=
  table_ext fun q => Bool.eq_iff_iff.mpr ((h q).trans (electorateOf_getElem s p q).symm)

/-! ### The parameters -/

theorem sourceOf?_of_le {n : Nat} (h : 2 ≤ n) : sourceOf? n = none := by
  obtain ⟨m, rfl⟩ := Nat.exists_eq_add_of_le' h
  rfl

/-- A source code with the window that FOLLOW judges (R152). -/
def sourceInRange (period source window : Nat) : Prop :=
  source < 2 ∧ (source = 1 → 1 ≤ window ∧ window ≤ 255 ∧ window ≤ period / 8)

theorem newSourceOf?_of_range {period source window : Nat} (h : ¬ sourceInRange period source window) :
    newSourceOf? period source window = none := by
  match source with
  | 0 => exact absurd ⟨by omega, nofun⟩ h
  | 1 => exact if_neg fun hwindow => h ⟨by omega, fun _ => hwindow⟩
  | n + 2 => rfl

theorem newSourceOf?_of_inRange {period source window : Nat} (h : sourceInRange period source window) :
    newSourceOf? period source window = some (if source = 0 then .free else .follow window) := by
  obtain ⟨hlt, hwindow⟩ := h
  match source with
  | 0 => rfl
  | 1 => exact if_pos (hwindow rfl)
  | n + 2 => omega

/-! ### The command -/

/-- The row of `propose`. -/
theorem exec_propose (p : Port) (tag period source window votes : Nat) (s : State) :
    exec (.propose p tag period source window votes) s =
      .next (whileRunning (takeRequest p tag fun _ => cmdPropose p period source window votes) s) := rfl

section OpenChecked

variable {p : Port} {period votes : Nat} {src : NewSource} {s : State}

theorem openChecked_of_stopped (h : running s = false) : openChecked p period src votes s = refuse .stopped s := by
  rw [openChecked, h]
  rfl

theorem openChecked_of_busy (h : running s = true) (hsome : s.agreement.proposal.isSome = true) :
    openChecked p period src votes s = refuse .busy s := by
  rw [openChecked, h, hsome]
  rfl

theorem openChecked_of_none (h : running s = true) (hnone : s.agreement.proposal = none) :
    openChecked p period src votes s =
      if !everythingFits s period then refuse .doesNotFit s
      else okWith (proposeAnswer (newProposal s p period src votes))
        (openProposal (newProposal s p period src votes) s) := by
  rw [openChecked, h, hnone]
  rfl

theorem openChecked_of_unfit (h : running s = true) (hnone : s.agreement.proposal = none)
    (hfits : ¬ FitsPeriod s period) : openChecked p period src votes s = refuse .doesNotFit s := by
  have hno : everythingFits s period = false := Bool.eq_false_iff.mpr fun hyes => hfits (everythingFits_iff.mp hyes)
  rw [openChecked_of_none h hnone, hno]
  rfl

theorem openChecked_of_fit (h : running s = true) (hnone : s.agreement.proposal = none) (hfits : FitsPeriod s period) :
    openChecked p period src votes s =
      okWith (proposeAnswer (newProposal s p period src votes))
        (openProposal (newProposal s p period src votes) s) := by
  rw [openChecked_of_none h hnone, everythingFits_iff.mpr hfits]
  rfl

end OpenChecked

section Propose

variable {p : Port} {tag period source window votes : Nat} {s t : State}

/-- The parameters of `propose` in range (R152). -/
def proposalInRange (period source window votes : Nat) : Prop :=
  sourceInRange period source window ∧ 64 ≤ period ∧ period ≤ 65535 ∧ 1 ≤ votes ∧ votes ≤ 255

theorem exec_propose_of_range (ready : Ready s p) (h : ¬ proposalInRange period source window votes) :
    exec (.propose p tag period source window votes) s = refused p tag .range s := by
  refine exec_eq_replied_of_verdict (exec_propose p tag period source window votes s) ready ?_
  by_cases hsource : sourceInRange period source window
  · simp only [newSourceOf?_of_inRange hsource, if_neg fun hrest => h ⟨hsource, hrest⟩, refuse]
  · simp only [newSourceOf?_of_range hsource, refuse]

/-- `propose` with its parameters in range, from the verdict of the checks of the state. -/
theorem exec_propose_of_verdict {st : Status} {bytes : List Byte} (ready : Ready s p)
    (h : proposalInRange period source window votes)
    (hopen : openChecked p period (if source = 0 then .free else .follow window) votes (heard p s) =
      (t, { status := st, payload := bytes })) :
    exec (.propose p tag period source window votes) s = .next (replied p tag st bytes t) := by
  refine exec_eq_replied_of_verdict (exec_propose p tag period source window votes s) ready ?_
  obtain ⟨hsource, hrest⟩ := h
  simp only [newSourceOf?_of_inRange hsource, if_pos hrest, hopen]

end Propose

/-- Settles O48: RANGE, STOPPED, BUSY, DOES_NOT_FIT, and the opening, whose electorate the statement determines. -/
theorem propose : Obligations.Propose := by
  intro p tag period source window votes s ready run inRange
  have hiff : inRange ↔ proposalInRange period source window votes :=
    ⟨fun ⟨⟨h1, h2⟩, h3, ⟨h4, h5⟩, h6⟩ => ⟨⟨h3, h6⟩, h1, h2, h4, h5⟩,
      fun ⟨⟨h3, h6⟩, h1, h2, h4, h5⟩ => ⟨⟨h1, h2⟩, h3, ⟨h4, h5⟩, h6⟩⟩
  refine ⟨fun hout => exec_propose_of_range ready (mt hiff.mpr hout), fun hin hstopped => ?_,
    fun hin hrun hbusy => ?_, fun hin hrun hnone => ⟨fun hunfit => ?_, fun hfits electorate helectorate => ?_⟩⟩
  · exact exec_propose_of_verdict ready (hiff.mp hin)
      (openChecked_of_stopped (s := heard p s) (running_eq_false_iff.mpr hstopped))
  · exact exec_propose_of_verdict ready (hiff.mp hin) (openChecked_of_busy (s := heard p s) hrun hbusy)
  · exact exec_propose_of_verdict ready (hiff.mp hin) (openChecked_of_unfit (s := heard p s) hrun hnone hunfit)
  · intro alone pr
    have hnew : newProposal (heard p s) p period (if source = 0 then .free else .follow window) votes = pr := by
      have hsame : electorateOf (heard p s) p = electorate := (eq_electorateOf helectorate).symm
      have hst : (if electorate = (Vector.replicate 4 false).set p true then ProposalState.accepted else .opened) =
          if alone then .accepted else .opened := by
        simp only [alone, decide_eq_true_eq]
      rw [newProposal, hsame, single_eq_set_replicate, hst]
      rfl
    have hopen := openChecked_of_fit (s := heard p s) (p := p) (votes := votes)
      (src := if source = 0 then .free else .follow window) hrun hnone hfits
    rw [hnew] at hopen
    have hcode : byteOf pr.state.code = if alone then 1#8 else 0#8 := by
      dsimp only [pr]
      cases alone <;> rfl
    rw [proposeAnswer, hcode] at hopen
    exact exec_propose_of_verdict ready (hiff.mp hin) hopen

end Sys2Proof.Machine
end

section
/-! SUPPORT. A frame boundary as the claims speak of it, the wrap, and the start and stop of the timebase (spec/01 R5 to
R15). -/

namespace Sys2Proof.Machine

/-! ### The boundary -/

/-- The short-frame judgement of every slot, as the claims speak of it (R96). -/
theorem shortFrames_eq_missedAt (c : Nat) (s : State) : shortFrames c s = missedAt c s := by
  unfold shortFrames missedAt
  refine congrArg (fun f => (List.finRange 32).filterMap f) (funext fun i => ?_)
  unfold shortFrameOf
  cases s.slots[i] with
  | none => rfl
  | some r => simp only [dueIn_eq_dueUnder]; rfl

/-- A boundary of any kind begins a frame (R6, R7). -/
theorem makeBoundary_eq (k : BoundaryKind) (s : State) :
    makeBoundary k s = frameBegun (k.nextSeq s.tb.seq) (k.grace s) (k.cutRecords s) s := by
  have hcount (pr : Proposal) : pr.countFrame =
      if pr.state = .opened then { pr with framesLeft := pr.framesLeft - 1 } else pr := by
    unfold Proposal.countFrame
    cases pr.state <;> rfl
  rw [makeBoundary, frameBegun, funext Session.countFrame_eq_counted, funext hcount]

theorem makeBoundary_edge_eq (c : Nat) (s : State) :
    makeBoundary (.edge c) s = frameBegun ((s.tb.seq + 1) % 65536) false (missedAt c s) s := by
  rw [makeBoundary_eq, BoundaryKind.cutRecords, shortFrames_eq_missedAt]
  rfl

theorem nextSeq_wrap (seq : Nat) :
    BoundaryKind.nextSeq .wrap seq = if seq % 65536 = 65535 then 0 else seq % 65536 + 1 := by
  change (seq + 1) % 65536 = _
  split <;> omega

theorem grace_wrap (s : State) :
    BoundaryKind.grace .wrap s = if s.tb.state = .locked then true else s.sync.grace := by
  change (decide (s.tb.state = .locked) || s.sync.grace) = _
  split
  case isTrue h => rw [decide_eq_true h, Bool.true_or]
  case isFalse h => rw [decide_eq_false h, Bool.false_or]

/-! ### The wrap -/

/-- The row of WRAP. -/
theorem exec_wrap {s : State} (h : Awake s) : exec .wrap s = .next (takeWrap s) :=
  congrArg _ (happens_of_awake takeWrap s h)

theorem takeWrap_of_due {s : State} (hdue : s.due.wrap = true) (hrun : running s = true) :
    takeWrap s = frameBegun (if s.tb.seq % 65536 = 65535 then 0 else s.tb.seq % 65536 + 1)
      (if s.tb.state = .locked then true else s.sync.grace) [] s := by
  rw [takeWrap, hdue, hrun, Bool.true_and, if_pos rfl, makeBoundary_eq, nextSeq_wrap, grace_wrap]
  rfl

theorem takeWrap_of_not_due {s : State} (h : s.due.wrap = false ∨ running s = false) : takeWrap s = s := by
  refine if_neg fun hboth => ?_
  obtain ⟨hdue, hrun⟩ := Bool.and_eq_true_iff.mp hboth
  obtain h | h := h
  · rw [h] at hdue; cases hdue
  · rw [h] at hrun; cases hrun

/-- Settles O7: the wrap is the WRAP boundary, taken only when it is due of a running timebase. -/
theorem wrapMakesABoundary : Obligations.WrapMakesABoundary := by
  intro s awake
  refine ⟨fun hdue hrun => ?_, fun hnot => ?_⟩
  · rw [exec_wrap awake, takeWrap_of_due hdue hrun]
  · rw [exec_wrap awake, takeWrap_of_not_due hnot]

/-! ### The start and the stop -/

/-- A row that is a timebase command of a ready port in a quiet state, from the command's verdict. -/
theorem exec_eq_replied_of_timebase {i : Instr} {p : Port} {tag : Nat} {cmd : Command} {s t : State} {st : Status}
    {bytes : List Byte} (hrow : exec i s = .next (whileRunning (takeTimebaseRequest p tag fun _ => inSession p cmd) s))
    (ready : Ready s p) (quiet : Quiet s) (hcmd : cmd (heard p s) = (t, { status := st, payload := bytes })) :
    exec i s = .next (replied p tag st bytes t) := by
  have ⟨⟨awake, _⟩, _⟩ := ready
  have hreply := takeRequest_inSession_of_verdict (tag := tag) ready hcmd
  rw [whileRunning_of_awake _ s awake] at hreply
  rw [hrow, whileRunning_of_awake _ s awake, takeTimebaseRequest_of_quiet p tag _ s quiet, hreply]

/-- The row of `tb_start`. -/
theorem exec_tbStart (p : Port) (tag : Nat) (s : State) :
    exec (.tbStart p tag) s = .next (whileRunning (takeTimebaseRequest p tag fun _ => cmdTbStart p) s) := rfl

/-- The row of `tb_stop`. -/
theorem exec_tbStop (p : Port) (tag : Nat) (s : State) :
    exec (.tbStop p tag) s = .next (whileRunning (takeTimebaseRequest p tag fun _ => cmdTbStop p) s) := rfl

theorem startTimebase_eq (s : State) : startTimebase s =
    emitAll .timebaseStarted (frameBegun 0 false []
      { s with
        tb := { s.tb with state := if s.tb.source = .free then .free else .acquiring }
        sync := if s.tb.source = .free then s.sync
          else { slip := 0, interval := 0, phaseError := 0, intervalCounter := none, grace := false,
                 lockedOnce := false } }) := by
  rw [startTimebase, makeBoundary_eq]
  cases s.tb.source <;> rfl

/-- Settles O8: BUSY while running, and the START boundary from STOPPED. -/
theorem tbStart : Obligations.TbStart := by
  intro p tag s ready quiet
  refine ⟨fun hrun => ?_, fun hstopped => ?_⟩
  · exact exec_eq_replied_of_timebase (exec_tbStart p tag s) ready quiet (if_pos hrun)
  · have hnot : ¬ running (heard p s) = true := by
      rw [Bool.not_eq_true]
      exact running_eq_false_iff.mpr hstopped
    refine exec_eq_replied_of_timebase (exec_tbStart p tag s) ready quiet ((if_neg hnot).trans ?_)
    rw [startTimebase_eq]
    rfl

theorem otherBound_iff {s : State} {p : Port} : otherBound s p = true ↔ ∃ q : Port, q ≠ p ∧ Bound s q := by
  simp only [otherBound, someId_eq_true, Bool.and_eq_true, decide_eq_true_eq, bound_iff]

theorem stopTimebase_eq (p : Port) (s : State) : stopTimebase p s =
    emitAll (.timebaseStopped p) (deliverAll s.conv.queue .aborted
      { s with
        tb := { s.tb with state := .stopped }
        sync := { s.sync with grace := false }
        slots := s.slots.map fun r => r.map fun r => { r with lastFired := none }
        conv := { s.conv with queue := [] }
        due := { s.due with wrap := false } }) := rfl

/-- The checks of `tb_stop` and the stop (R14, R15). -/
def stopChecked (p : Port) : Command := fun s =>
  if !running s then refuse .stopped s
  else if otherBound s p then refuse .inUse s
  else if s.agreement.proposal.isSome then refuse .busy s
  else okay (stopTimebase p s)

theorem cmdTbStop_eq (p : Port) : cmdTbStop p = inSession p (stopChecked p) := rfl

section StopChecked

variable {p : Port} {s : State}

theorem stopChecked_of_stopped (h : running s = false) : stopChecked p s = refuse .stopped s := by
  rw [stopChecked, h]
  rfl

theorem stopChecked_of_bound (h : running s = true) (hbound : otherBound s p = true) :
    stopChecked p s = refuse .inUse s := by
  rw [stopChecked, h, hbound]
  rfl

theorem stopChecked_of_proposal (h : running s = true) (hbound : otherBound s p = false)
    (hsome : s.agreement.proposal.isSome = true) : stopChecked p s = refuse .busy s := by
  rw [stopChecked, h, hbound, hsome]
  rfl

theorem stopChecked_of_none (h : running s = true) (hbound : otherBound s p = false)
    (hnone : s.agreement.proposal = none) : stopChecked p s = okay (stopTimebase p s) := by
  rw [stopChecked, h, hbound, hnone]
  rfl

end StopChecked

/-- Settles O9: the refusals in R14's order, and the stop. -/
theorem tbStop : Obligations.TbStop := by
  intro p tag s ready quiet
  refine ⟨fun hstopped => ?_, fun hrun => ⟨fun hbound => ?_, fun hfree => ⟨fun hsome => ?_, fun hnone => ?_⟩⟩⟩
  · exact exec_eq_replied_of_timebase (exec_tbStop p tag s) ready quiet
      (stopChecked_of_stopped (s := heard p s) (running_eq_false_iff.mpr hstopped))
  · exact exec_eq_replied_of_timebase (exec_tbStop p tag s) ready quiet
      (stopChecked_of_bound (s := heard p s) hrun (otherBound_iff.mpr hbound))
  all_goals
    have hbound : otherBound (heard p s) p = false :=
      Bool.eq_false_iff.mpr fun h => by
        obtain ⟨q, hq, hbound⟩ := otherBound_iff.mp h
        exact hfree q hq hbound
  · exact exec_eq_replied_of_timebase (exec_tbStop p tag s) ready quiet
      (stopChecked_of_proposal (s := heard p s) hrun hbound hsome)
  · exact exec_eq_replied_of_timebase (exec_tbStop p tag s) ready quiet
      ((stopChecked_of_none (s := heard p s) hrun hbound hnone).trans (congrArg okay (stopTimebase_eq p (heard p s))))

end Sys2Proof.Machine
end

section
/-! SUPPORT. The happenings of a tick that are one rule each: the grace, the resume of lanes, the agreement's expiry, the
completion of a conversion (spec/02 R29, spec/07 R107 to R110, spec/09 R145, spec/10 R161). -/

namespace Sys2Proof.Machine

/-! ### Events to the ports that a test picks out -/

/-- An emission to the ports that a test picks out reaches those of them that are OPEN. -/
theorem emit_if_delivery (test : Port → Bool) (event : Port → Event) (s : State) (p : Port) :
    (emit (fun q => if test q then some (event q) else none) s).delivery[p] =
      if test p = true ∧ s.sessions[p].state = .opened then s.delivery[p].pushEvent (event p) s.tb.seq
      else s.delivery[p] := by
  rw [Fin.getElem_fin, emit_delivery]
  by_cases htest : test p = true
  · by_cases hopen : s.sessions[p].state = .opened
    · rw [if_pos htest, if_pos ⟨htest, hopen⟩]
      exact if_pos (isOpen_iff.mpr hopen)
    · rw [if_pos htest, if_neg fun h => hopen h.2]
      exact if_neg fun h => hopen (isOpen_iff.mp h)
  · simp [htest]

/-! ### The grace -/

/-- The row of GRACE_EXPIRY. -/
theorem exec_graceExpiry {s : State} (h : Awake s) : exec .graceExpiry s = .next (takeGrace s) :=
  congrArg _ (happens_of_awake takeGrace s h)

theorem graceExpires_iff {s : State} :
    graceExpires s = true ↔ s.tb.state = .locked ∧ s.sync.grace = true ∧ s.tb.counter = s.tb.window := by
  simp only [graceExpires, Bool.and_eq_true, decide_eq_true_eq, and_assoc]

theorem takeGrace_of_kept {s : State} (hslip : s.sync.slip < 3) (h : graceExpires s = true) :
    takeGrace s =
      { s with
        sync := { s.sync with grace := false, slip := s.sync.slip + 1 }
        due := { s.due with edge := false } } := by
  have hmin : min Config.slipLimit (s.sync.slip + 1) = s.sync.slip + 1 := Nat.min_eq_right (by change _ ≤ 4; omega)
  have hbelow : ¬ Config.slipLimit ≤ s.sync.slip + 1 := by change ¬ 4 ≤ _; omega
  rw [takeGrace, if_pos h, graceRunsOut, if_neg hbelow, hmin]

theorem takeGrace_of_lost {s : State} (hslip : s.sync.slip = 3) (h : graceExpires s = true) :
    takeGrace s = emitAll (.syncLost s.sync.interval)
      { s with
        tb := { s.tb with state := .coasting }
        sync := { s.sync with grace := false, slip := 4 }
        due := { s.due with edge := false } } := by
  rw [takeGrace, if_pos h, graceRunsOut, hslip]
  rfl

/-- Settles O13: the slip stays below 4 or reaches it. -/
theorem Settled.graceRunsOut : Obligations.GraceRunsOut := by
  intro s awake
  refine ⟨fun hlocked hgrace hcounter => ?_, fun hnot => ?_⟩
  · have hexpires := graceExpires_iff.mpr ⟨hlocked, hgrace, hcounter⟩
    refine ⟨fun hslip => ?_, fun hslip => ?_⟩
    · rw [exec_graceExpiry awake, takeGrace_of_kept hslip hexpires]
    · rw [exec_graceExpiry awake, takeGrace_of_lost hslip hexpires]
  · have hkept : ¬ graceExpires s = true := fun h => by
      obtain ⟨hlocked, hgrace, hcounter⟩ := graceExpires_iff.mp h
      obtain hnot | hnot | hnot := hnot
      · exact hnot hlocked
      · rw [hgrace] at hnot; cases hnot
      · exact hnot hcounter
    rw [exec_graceExpiry awake, takeGrace, if_neg hkept]

/-! ### The resume of lanes -/

/-- The row of LANES_RESUMED. -/
theorem exec_lanesResumed {s : State} (h : Awake s) : exec .lanesResumed s = .next (takeResume s) :=
  congrArg _ (happens_of_awake takeResume s h)

/-- The lanes of port p that hold rearm_pending, by their state. -/
theorem resumedLanes_eq (s : State) (p : Port) : resumedLanes s p = Vector.ofFn fun l =>
    match s.lanes[l].status with
    | .tripped q _ true => decide (q = p)
    | _ => false := by
  refine congrArg Vector.ofFn (funext fun l => ?_)
  rw [ownsLane]
  cases s.lanes[l].status with
  | free | leased | orphaned => rfl
  | tripped q cause rearm =>
    cases rearm with
    | false => rfl
    | true => simp [LaneStatus.rearm, LaneStatus.owner?]

theorem resume_eq (r : LaneRec) : r.resume =
    match r.status with
    | .tripped p _ true => { r with status := .leased p }
    | _ => r := by
  unfold LaneRec.resume
  cases r.status with
  | free | leased | orphaned => rfl
  | tripped p cause rearm => cases rearm <;> rfl

theorem resumeLanes_delivery (s : State) (p : Port) : (resumeLanes s).delivery[p] =
    if nonempty (resumedLanes s p) = true ∧ s.sessions[p].state = .opened then
      s.delivery[p].pushEvent (.lanesResumed (resumedLanes s p)) s.tb.seq
    else s.delivery[p] :=
  emit_if_delivery (fun p => nonempty (resumedLanes s p)) (fun p => .lanesResumed (resumedLanes s p)) s p

/-- Settles O16: the response resumes the lanes with rearm_pending and tells their owners. -/
theorem lanesResume : Obligations.LanesResume := by
  intro s awake
  refine ⟨fun hdue => ?_, fun hnot => by rw [exec_lanesResumed awake, takeResume_of_not_due s hnot]⟩
  refine ⟨resumeLanes s, by rw [exec_lanesResumed awake, takeResume, if_pos hdue], fun l => ?_, fun p => ?_, rfl⟩
  · exact (get_map LaneRec.resume s.lanes l).trans (resume_eq _)
  · intro mine
    have hmine : resumedLanes s p = mine := resumedLanes_eq s p
    rw [resumeLanes_delivery, hmine]
    simp only [nonempty_eq_true]

/-! ### The agreement's expiry -/

/-- The row of PROPOSAL_EXPIRY. -/
theorem exec_proposalExpiry {s : State} (h : Awake s) : exec .proposalExpiry s = .next (takeProposalExpiry s) :=
  congrArg _ (happens_of_awake takeProposalExpiry s h)

section ProposalExpiry

variable {s : State} {pr : Proposal}

theorem takeProposalExpiry_of_not_due (h : s.due.agreement = false) : takeProposalExpiry s = s := by
  unfold takeProposalExpiry
  rw [h]

theorem takeProposalExpiry_of_accepted (h : ∀ pr ∈ s.agreement.proposal, pr.state = .accepted) :
    takeProposalExpiry s = s := by
  cases hdue : s.due.agreement with
  | false => exact takeProposalExpiry_of_not_due hdue
  | true =>
    unfold takeProposalExpiry
    cases hpr : s.agreement.proposal with
    | none => rw [hdue]
    | some pr => simp only [hdue, h pr hpr]

theorem takeProposalExpiry_of_opened (hdue : s.due.agreement = true) (hpr : s.agreement.proposal = some pr)
    (hopen : pr.state = .opened) :
    takeProposalExpiry s = if pr.framesLeft = 0 then endProposal pr.id .expired s else closeAgreement s := by
  unfold takeProposalExpiry
  simp only [hdue, hpr, hopen]

end ProposalExpiry

/-- Settles O19: the boundary counts an OPEN proposal down, and its response judges the count. -/
theorem proposalCountsDown : Obligations.ProposalCountsDown := by
  intro s awake
  refine ⟨fun hnot => ?_, fun pr hpr hopen => ⟨fun hdue hrun _ => ?_, fun hdue => ⟨fun hzero => ?_, fun hleft => ?_⟩⟩⟩
  · rw [exec_proposalExpiry awake]
    obtain hnot | hnot := hnot
    · rw [takeProposalExpiry_of_not_due hnot]
    · rw [takeProposalExpiry_of_accepted hnot]
  · refine ⟨_, (exec_wrap awake).trans (congrArg _ (takeWrap_of_due hdue hrun)), awake, ?_, ?_⟩
    · exact congrArg Option.isSome hpr
    · refine (congrArg (Option.map _) hpr).trans ?_
      rw [Option.map_some, if_pos hopen]
  · rw [exec_proposalExpiry awake, takeProposalExpiry_of_opened hdue hpr hopen, if_pos hzero]
    rfl
  · rw [exec_proposalExpiry awake, takeProposalExpiry_of_opened hdue hpr hopen, if_neg (Nat.one_le_iff_ne_zero.mp hleft)]
    rfl

/-! ### The completion of a conversion -/

/-- The row of CONVERSION_COMPLETE. -/
theorem exec_conversionComplete {s : State} (h : Awake s) : exec .conversionComplete s = .next (takeCompletion s) :=
  congrArg _ (happens_of_awake takeCompletion s h)

/-- Settles O21: nothing without a conversion of 40 ticks; else the OK record and what taking the head does. -/
theorem conversionCompletes : Obligations.ConversionCompletes := by
  intro s awake
  refine ⟨fun hidle => by rw [exec_conversionComplete awake, takeCompletion_of_idle hidle], fun c hc => ⟨fun hearly => ?_,
    fun hcomplete => ?_⟩⟩
  · rw [exec_conversionComplete awake, takeCompletion_of_early hc hearly]
  intro age stale told
  have htold : deliverFor c.request (.ok c.capture c.wait) s = told := by
    dsimp only [told]
    unfold deliverFor
    cases c.request.owner <;> rfl
  have hhead : Converter.afterHead s s.conv.queue =
      match s.conv.queue.dropWhile stale with
      | [] => { inFlight := none, queue := [] }
      | r :: rest =>
          { inFlight := some { request := r, wait := age r, capture := captured s.pins.ain[r.channel], elapsed := 0 }
            queue := rest } := by
    unfold Converter.afterHead startOf
    simp only [codeOf_eq_captured]
    rfl
  rw [exec_conversionComplete awake, takeCompletion_of_complete hc hcomplete, finishConversion_eq, htold, hhead]
  rfl

end Sys2Proof.Machine
end

section
/-! SUPPORT. Trip lines: the judgement of a sample, the assertion and the deassertion (spec/09 R134 to R140). -/

namespace Sys2Proof.Machine

/-! ### The rows -/

section Rows

variable {s : State} {k : Line}

/-- The row of TRIP_PIN_SAMPLE. -/
theorem exec_tripPinSample (h : Awake s) : exec (.tripPinSample k) s = .next (takeSample k s) :=
  congrArg _ (happens_of_awake (takeSample k) s h)

/-- The row of TRIP_ASSERTION. -/
theorem exec_tripAssertion (h : Awake s) : exec (.tripAssertion k) s = .next (takeAssertion k s) :=
  congrArg _ (happens_of_awake (takeAssertion k) s h)

/-- The row of TRIP_DEASSERTION. -/
theorem exec_tripDeassertion (h : Awake s) : exec (.tripDeassertion k) s = .next (takeDeassertion k s) :=
  congrArg _ (happens_of_awake (takeDeassertion k) s h)

theorem takeAssertion_of_asserts (hdue : s.due.trip[k] = true) (h : sampleMove s k = .asserts) :
    takeAssertion k s = assertLine k (sampleTaken k s) := by
  rw [takeAssertion, hdue, h]
  rfl

theorem takeDeassertion_of_deasserts (hdue : s.due.trip[k] = true) (h : sampleMove s k = .deasserts) :
    takeDeassertion k s = deassertLine k (sampleTaken k s) := by
  rw [takeDeassertion, hdue, h]
  rfl

theorem takeSample_of_due (hdue : s.due.trip[k] = true) :
    takeSample k s = moveLine k (sampleMove s k) (sampleTaken k s) := if_pos hdue

theorem exec_sample_of_asserts (awake : Awake s) (hdue : s.due.trip[k] = true) (h : sampleMove s k = .asserts) :
    exec (.tripPinSample k) s = exec (.tripAssertion k) s := by
  rw [exec_tripPinSample awake, exec_tripAssertion awake, takeSample_of_due hdue, takeAssertion_of_asserts hdue h, h]
  rfl

theorem exec_sample_of_deasserts (awake : Awake s) (hdue : s.due.trip[k] = true) (h : sampleMove s k = .deasserts) :
    exec (.tripPinSample k) s = exec (.tripDeassertion k) s := by
  rw [exec_tripPinSample awake, exec_tripDeassertion awake, takeSample_of_due hdue, takeDeassertion_of_deasserts hdue h,
    h]
  rfl

theorem exec_sample_of_move {d : Detect} {n : Nat} (awake : Awake s) (hdue : s.due.trip[k] = true)
    (h : sampleMove s k = .move d n) :
    exec (.tripPinSample k) s = .next { s with
      trips := s.trips.set k { s.trips[k] with detect := d, qualifyCount := n }
      due := { s.due with trip := s.due.trip.set k false } } := by
  rw [exec_tripPinSample awake, takeSample_of_due hdue, h]
  rfl

end Rows

/-- A level is active under a polarity (R134). -/
theorem Polarity.active_eq (pol : Polarity) (high : Bool) :
    pol.active high = if pol = .activeHigh then high else !high := by
  cases pol <;> rfl

/-- Settles O23: the table of R135, a row for each detect state and each sample. -/
theorem tripSampleJudged : Obligations.TripSampleJudged := by
  intro s k awake
  refine ⟨fun hnot => ?_, fun hdue => ?_⟩
  · rw [exec_tripPinSample awake, takeSample, hnot]
    rfl
  intro r active moves asserts deasserts
  have hactive : r.settings.polarity.active s.pins.trip[k] = active := Polarity.active_eq _ _
  have hmoves {d : Detect} {n : Nat} (h : sampleMove s k = .move d n) : moves d n := exec_sample_of_move awake hdue h
  have hasserts (h : sampleMove s k = .asserts) : asserts := exec_sample_of_asserts awake hdue h
  have hdeasserts (h : sampleMove s k = .deasserts) : deasserts := exec_sample_of_deasserts awake hdue h
  have hmove : sampleMove s k = r.judge s.pins.trip[k] := rfl
  rw [TripLine.judge, hactive] at hmove
  have hassertsIf {c : Prop} [Decidable c] {d : Detect} {n : Nat}
      (h : sampleMove s k = if c then .asserts else .move d n) : if c then asserts else moves d n := by
    split
    case isTrue hc => exact hasserts (h.trans (if_pos hc))
    case isFalse hc => exact hmoves (h.trans (if_neg hc))
  have hdeassertsIf {c : Prop} [Decidable c] {d : Detect} {n : Nat}
      (h : sampleMove s k = if c then .deasserts else .move d n) : if c then deasserts else moves d n := by
    split
    case isTrue hc => exact hdeasserts (h.trans (if_pos hc))
    case isFalse hc => exact hmoves (h.trans (if_neg hc))
  clear_value moves asserts deasserts active
  generalize r.detect = detect at hmove ⊢
  match detect, active with
  | .idle, false => exact hmoves hmove
  | .idle, true => exact hassertsIf hmove
  | .qualifyingOn, false => exact hmoves hmove
  | .qualifyingOn, true => exact hassertsIf hmove
  | .asserted, true => exact hmoves hmove
  | .asserted, false => exact hdeassertsIf hmove
  | .qualifyingOff, true => exact hmoves hmove
  | .qualifyingOff, false => exact hdeassertsIf hmove

/-! ### The assertion -/

/-- A sample that completes a qualification on is the assertion (R135). -/
theorem judge_of_on {r : TripLine} {high : Bool} (hactive : r.settings.polarity.active high = true)
    (h : (r.detect = .idle ∧ r.settings.qualify = 0) ∨
      (r.detect = .qualifyingOn ∧ r.settings.qualify ≤ r.qualifyCount + 1)) : r.judge high = .asserts := by
  unfold TripLine.judge
  obtain ⟨hdetect, hcount⟩ | ⟨hdetect, hcount⟩ := h
  · simp only [hdetect, hactive, if_pos hcount]
  · simp only [hdetect, hactive, if_pos hcount]

/-- A sample that completes a qualification off is the deassertion (R135). -/
theorem judge_of_off {r : TripLine} {high : Bool} (hactive : r.settings.polarity.active high = false)
    (h : (r.detect = .asserted ∧ r.settings.qualify = 0) ∨
      (r.detect = .qualifyingOff ∧ r.settings.qualify ≤ r.qualifyCount + 1)) : r.judge high = .deasserts := by
  unfold TripLine.judge
  obtain ⟨hdetect, hcount⟩ | ⟨hdetect, hcount⟩ := h
  · simp only [hdetect, hactive, if_pos hcount]
  · simp only [hdetect, hactive, if_pos hcount]

theorem onAssert_eq (k : Line) (r : LaneRec) : r.onAssert k =
    if r.settings.tripMask[k] then
      match r.status with
      | .leased p => { r with status := .tripped p ((Vector.replicate 4 false).set k true) false }
      | .tripped p cause _ => { r with status := .tripped p (cause.set k true) false }
      | .free => r
      | .orphaned => r
    else r := by
  unfold LaneRec.onAssert
  simp only [single_eq_set_replicate, insertId_eq_set]
  cases r.status <;> rfl

theorem assertLine_delivery (k : Line) (s : State) (p : Port) : (assertLine k s).delivery[p] =
    if (tripInformed s k)[p] = true ∧ s.sessions[p].state = .opened then
      s.delivery[p].pushEvent (.trip k (affectedLanes s k p)) s.tb.seq
    else s.delivery[p] :=
  emit_if_delivery (fun p => (tripInformed s k)[p]) (fun p => .trip k (affectedLanes s k p)) s p

/-- The ports told of an assertion, by the lanes that name the line and the line's owner (R137). -/
theorem tripInformed_eq (s : State) (k : Line) : tripInformed s k = Vector.ofFn fun p =>
    decide (∃ l : Lane, (affectedLanes s k p)[l] = true) || decide (s.trips[k].ownership = .owned p) := by
  refine congrArg Vector.ofFn (funext fun p => ?_)
  rw [Bool.eq_iff_iff, Bool.or_eq_true, Bool.or_eq_true, nonempty_eq_true, ownsLine_iff, decide_eq_true_eq,
    decide_eq_true_eq]

/-- Settles O24: the assertion by lane, line and port. -/
theorem lineAsserts : Obligations.LineAsserts := by
  intro s k awake hdue hlevel hcount
  have hactive : s.trips[k].settings.polarity.active s.pins.trip[k] = true := by
    rw [Polarity.active_eq]
    split
    case isTrue hpol => exact hlevel.mp hpol
    case isFalse hpol => simp only [Bool.not_eq_true', ← Bool.not_eq_true]; exact mt hlevel.mpr hpol
  have hmove : sampleMove s k = .asserts := judge_of_on hactive hcount
  refine ⟨_, (exec_tripAssertion awake).trans (congrArg _ (takeAssertion_of_asserts hdue hmove)), ?_⟩
  beta_reduce
  intro affected told
  have htold : tripInformed s k = Vector.ofFn told := tripInformed_eq s k
  refine ⟨fun l => ?_, ?_, fun p => ?_, rfl⟩
  · exact (get_map (LaneRec.onAssert k) s.lanes l).trans (onAssert_eq k _)
  · rw [← htold]
    rfl
  · refine (assertLine_delivery k (sampleTaken k s) p).trans ?_
    have hsame : tripInformed (sampleTaken k s) k = Vector.ofFn told := htold
    rw [hsame, get_ofFn]
    rfl

/-! ### The deassertion -/

theorem deassertLine_delivery (k : Line) (s : State) (p : Port) : (deassertLine k s).delivery[p] =
    if s.trips[k].informed[p] = true ∧ s.sessions[p].state = .opened then
      s.delivery[p].pushEvent (.tripCleared k) s.tb.seq
    else s.delivery[p] := by
  have hfield : (deassertLine k s).delivery = (clearTrip k s).delivery := by
    rw [deassertLine, recoverLanes]
    split <;> rfl
  rw [hfield]
  exact emit_if_delivery (fun p => s.trips[k].informed[p]) (fun _ => .tripCleared k) s p


/-- The state whose lanes FOLLOW recovery judges: line k is IDLE, its informed ports told (R138). -/
def lineIdle (k : Line) (s : State) : State :=
  { clearTrip k s with
    trips := s.trips.set k { s.trips[k] with detect := .idle, qualifyCount := 0, informed := IdSet.none 4 } }

theorem deassertLine_eq (k : Line) (s : State) : deassertLine k s = recoverLanes k (lineIdle k s) := rfl

section LineIdle

variable (k : Line) (s : State)

theorem lineIdle_trips (j : Line) : (lineIdle k s).trips[j] =
    if k = j then { s.trips[k] with detect := .idle, qualifyCount := 0, informed := IdSet.none 4 } else s.trips[j] :=
  get_set _ k j _

theorem lineIdle_mode (j : Line) : (lineIdle k s).trips[j].settings.mode = s.trips[j].settings.mode := by
  rw [lineIdle_trips]
  split
  case isTrue h => rw [h]
  case isFalse => rfl

theorem lineIdle_inForce (j : Line) : inForce (lineIdle k s) j = (inForce s j && decide (j ≠ k)) := by
  rw [inForce, lineIdle_trips]
  split
  case isTrue h => rw [h, decide_eq_false (not_not.mpr rfl), Bool.and_false]; rfl
  case isFalse h => rw [decide_eq_true (Ne.symm h), Bool.and_true]; rfl

theorem not_anyInForce_lineIdle (mask : LineSet) : (!anyInForce (lineIdle k s) mask) =
    decide (∀ j : Line, j ≠ k → mask[j] = true → inForce s j = false) := by
  rw [Bool.eq_iff_iff, Bool.not_eq_true', decide_eq_true_eq, ← Bool.not_eq_true, anyInForce, someId_eq_true]
  simp only [lineIdle_inForce, Bool.and_eq_true, decide_eq_true_eq, not_exists, not_and]
  refine forall_congr' fun j => ⟨fun h hne hmask => ?_, fun h hmask hforce hne => ?_⟩
  · exact Bool.eq_false_iff.mpr fun hforce => h hmask hforce hne
  · exact Bool.false_ne_true ((h hne hmask).symm.trans hforce)

theorem not_latched_lineIdle (cause : LineSet) : (!latched (lineIdle k s) cause) =
    decide (∀ j : Line, cause[j] = true → s.trips[j].settings.mode = .follow) := by
  have hmode (j : Line) : ¬ s.trips[j].settings.mode = .latch ↔ s.trips[j].settings.mode = .follow := by
    cases s.trips[j].settings.mode <;> simp
  rw [Bool.eq_iff_iff, Bool.not_eq_true', decide_eq_true_eq, ← Bool.not_eq_true, latched, someId_eq_true]
  simp only [lineIdle_mode, Bool.and_eq_true, decide_eq_true_eq, not_exists, not_and, hmode]

end LineIdle

/-- What FOLLOW recovery grants a TRIPPED lane at the deassertion of line k (R140). -/
def recoveryGrants (s : State) (k : Line) (mask cause : LineSet) : Bool :=
  decide (s.trips[k].settings.mode = .follow) && cause[k] &&
    decide (∀ j : Line, j ≠ k → mask[j] = true → inForce s j = false) &&
    decide (∀ j : Line, cause[j] = true → s.trips[j].settings.mode = .follow)

theorem onFollow_of_tripped {s : State} {k : Line} {r : LaneRec} {p : Port} {cause : LineSet} {rearm : Bool}
    (hst : r.status = .tripped p cause rearm) (hmode : s.trips[k].settings.mode = .follow) :
    r.onFollow (lineIdle k s) k =
      { r with status := .tripped p cause (rearm || recoveryGrants s k r.settings.tripMask cause) } := by
  rw [LaneRec.onFollow, hst]
  dsimp only
  rw [not_anyInForce_lineIdle, not_latched_lineIdle]
  have hgrants : recoveryGrants s k r.settings.tripMask cause =
      (cause[k] && decide (∀ j : Line, j ≠ k → r.settings.tripMask[j] = true → inForce s j = false) &&
        decide (∀ j : Line, cause[j] = true → s.trips[j].settings.mode = .follow)) := by
    rw [recoveryGrants, hmode, decide_eq_true rfl, Bool.true_and]
  rw [← hgrants]
  split
  case isTrue h => rw [h, Bool.or_true]
  case isFalse h => rw [Bool.eq_false_iff.mpr h, Bool.or_false]

/-- The lanes after a deassertion: FOLLOW recovery touches TRIPPED lanes only, and LATCH recovers none (R138, R140). -/
theorem deassertLine_lanes (k : Line) (s : State) (l : Lane) : (deassertLine k s).lanes[l] =
    match s.lanes[l].status with
    | .tripped p cause rearm =>
        { s.lanes[l] with
          status := .tripped p cause (rearm || recoveryGrants s k s.lanes[l].settings.tripMask cause) }
    | .free => s.lanes[l]
    | .leased _ => s.lanes[l]
    | .orphaned => s.lanes[l] := by
  rw [deassertLine_eq, recoverLanes, lineIdle_mode]
  cases hmode : s.trips[k].settings.mode with
  | latch =>
    have hnone (mask cause : LineSet) : recoveryGrants s k mask cause = false := by
      rw [recoveryGrants, hmode, decide_eq_false nofun]
      rfl
    cases hst : s.lanes[l].status with
    | free | leased | orphaned => rfl
    | tripped p cause rearm =>
      dsimp only
      rw [hnone, Bool.or_false, ← hst]
      rfl
  | follow =>
    refine (get_map _ (lineIdle k s).lanes l).trans ?_
    have hlane : (lineIdle k s).lanes[l] = s.lanes[l] := rfl
    rw [hlane]
    cases hst : s.lanes[l].status with
    | free | leased | orphaned => rw [LaneRec.onFollow, hst]
    | tripped p cause rearm => exact onFollow_of_tripped hst hmode

theorem deassertLine_frame (k : Line) (s : State) : deassertLine k s =
    { s with
      lanes := (deassertLine k s).lanes
      trips := s.trips.set k { s.trips[k] with detect := .idle, qualifyCount := 0, informed := IdSet.none 4 }
      delivery := (deassertLine k s).delivery } := by
  rw [deassertLine_eq, recoverLanes]
  split <;> rfl

/-- Settles O25: the deassertion by line, lane and port. -/
theorem lineDeasserts : Obligations.LineDeasserts := by
  intro s k awake hdue hlevel hcount
  have hactive : s.trips[k].settings.polarity.active s.pins.trip[k] = false := by
    rw [Polarity.active_eq]
    split
    case isTrue hpol => exact hlevel.mp hpol
    case isFalse hpol =>
      rw [Bool.not_eq_false', ← Bool.not_eq_false]
      exact mt hlevel.mpr hpol
  have hmove : sampleMove s k = .deasserts := judge_of_off hactive hcount
  refine ⟨_, (exec_tripDeassertion awake).trans (congrArg _ (takeDeassertion_of_deasserts hdue hmove)), ?_⟩
  refine ⟨?_, fun l => ?_, fun p => ?_, ?_⟩
  · rw [deassertLine_frame]; rfl
  · exact deassertLine_lanes k (sampleTaken k s) l
  · exact deassertLine_delivery k (sampleTaken k s) p
  · rw [deassertLine_frame]; rfl

end Sys2Proof.Machine
end

section
/-! SUPPORT. The edge: judged by the timebase's state, and the SYNC_LOCKED that waits (spec/02 R20 to R34). -/

namespace Sys2Proof.Machine

/-! ### A waiting SYNC_LOCKED is sent first -/

theorem takeLocked_of_waiting {s : State} {first : Bool} (h : s.due.locked = some first) :
    takeLocked s = emitAll (.syncLocked first) { s with due := { s.due with locked := none } } := by
  rw [takeLocked, h]

theorem takeLocked_twice (s : State) : takeLocked (takeLocked s) = takeLocked s :=
  takeLocked_of_not_due _ (takeLocked_locked s)

theorem takeLocked_inReset (s : State) : (takeLocked s).inReset = s.inReset := by
  obtain ⟨hreset, -⟩ := takeLocked_outside s
  exact hreset

/-- A command whose effect out of reset turns on the state with the waiting SYNC_LOCKED sent only. -/
def SendsLocked (i : Instr) : Prop :=
  ∃ f : State → State, ∀ s : State, s.inReset = false → exec i s = .next (f (takeLocked s))

theorem SendsLocked.exec_eq {i : Instr} (h : SendsLocked i) {s : State} (hreset : s.inReset = false) :
    exec i s = exec i (takeLocked s) := by
  obtain ⟨f, hf⟩ := h
  rw [hf s hreset, hf (takeLocked s) ((takeLocked_inReset s).trans hreset), takeLocked_twice]

theorem sendsLocked_of_happens {i : Instr} {f : State → State} (h : ∀ s, exec i s = .next (happens f s)) :
    SendsLocked i :=
  ⟨f, fun s hreset => (h s).trans (congrArg _ (if_neg (Bool.eq_false_iff.mp hreset)))⟩

theorem takes_takeLocked (p : Port) (tag : Nat) (r : Request) (s : State) :
    takes p tag r (takeLocked s) = takes p tag r s := by
  cases hr : setsTimebase r with
  | false =>
    rw [takes_of_plain hr, takeRequest, takeRequest, takeLocked_twice]
  | true =>
    rw [takes_of_timebase hr, takeTimebaseRequest, takeTimebaseRequest, finishBoundary, finishBoundary, takeLocked_twice]

theorem sendsLocked_toInstr (p : Port) (tag : Nat) (r : Request) : SendsLocked (r.toInstr p tag) := by
  refine ⟨takes p tag r, fun s hreset => ?_⟩
  rw [exec_toInstr, whileRunning, if_neg (Bool.eq_false_iff.mp hreset), takes_takeLocked]

/-- Any command but a lapse and those of the links and the reset pin sends a waiting SYNC_LOCKED first. -/
theorem sendsLocked {i : Instr} (hpart : i ≠ .partReset) (hrelease : i ≠ .resetRelease) (hlapse : ∀ p, i ≠ .lapse p)
    (hbegin : ∀ p, i ≠ .transactionBegin p) (hbyte : ∀ p b, i ≠ .byteClocked p b)
    (hend : ∀ p, i ≠ .transactionEnd p) : SendsLocked i := by
  cases hrequest : i.request? with
  | some x =>
    obtain ⟨p, tag, r⟩ := x
    rw [eq_toInstr_of_request hrequest]
    exact sendsLocked_toInstr p tag r
  | none =>
    cases i
    case partReset => exact absurd rfl hpart
    case resetRelease => exact absurd rfl hrelease
    case lapse p => exact absurd rfl (hlapse p)
    case transactionBegin p => exact absurd rfl (hbegin p)
    case byteClocked p b => exact absurd rfl (hbyte p b)
    case transactionEnd p => exact absurd rfl (hend p)
    case tick levels => exact sendsLocked_of_happens fun s => rfl
    case wrap => exact sendsLocked_of_happens fun s => rfl
    case graceExpiry => exact sendsLocked_of_happens fun s => rfl
    case syncEdge => exact sendsLocked_of_happens fun s => rfl
    case commitApply => exact sendsLocked_of_happens fun s => rfl
    case lanesResumed => exact sendsLocked_of_happens fun s => rfl
    case proposalCommit => exact sendsLocked_of_happens fun s => rfl
    case proposalExpiry => exact sendsLocked_of_happens fun s => rfl
    case slotFire => exact sendsLocked_of_happens fun s => rfl
    case conversionComplete => exact sendsLocked_of_happens fun s => rfl
    case tripPinSample t => exact sendsLocked_of_happens fun s => rfl
    case tripAssertion t => exact sendsLocked_of_happens fun s => rfl
    case tripDeassertion t => exact sendsLocked_of_happens fun s => rfl
    all_goals cases hrequest

/-! ### The edge of a tick -/

/-- The row of SYNC_EDGE. -/
theorem exec_syncEdge {s : State} (h : Awake s) : exec .syncEdge s = .next (takeEdge s) :=
  congrArg _ (happens_of_awake takeEdge s h)

/-- The state in which an edge is judged: it is taken. -/
def edgeCleared (s : State) : State := { s with due := { s.due with edge := false } }

theorem takeEdge_of_due {s : State} (hedge : s.due.edge = true) :
    takeEdge s = judgeEdge (edgeCleared (takeWrap s)) := if_pos hedge

theorem takeEdge_of_no_wrap {s : State} (hedge : s.due.edge = true) (hwrap : s.due.wrap = false ∨ running s = false) :
    takeEdge s = judgeEdge (edgeCleared s) := by
  rw [takeEdge_of_due hedge, takeWrap_of_not_due hwrap]

theorem SyncMonitor.measure_eq_accepted (m : SyncMonitor) (phase : Int) : m.measure phase = m.accepted phase := by
  unfold SyncMonitor.measure SyncMonitor.accepted
  cases m.intervalCounter <;> rfl

/-- An accepted edge closes the grace, whether it was open or not. -/
theorem SyncMonitor.accepted_grace (m : SyncMonitor) (b : Bool) (phase : Int) :
    { m with grace := b }.accepted phase = m.accepted phase := rfl

/-! ### In LOCKED -/

section Locked

variable {s : State}

theorem judgeEdge_of_locked (h : s.tb.state = .locked) : judgeEdge s = judgeLocked s := by
  rw [judgeEdge, h]

theorem judgeLocked_of_onTime (hwindow : s.tb.counter < s.tb.window) (hgrace : s.sync.grace = true)
    (hzero : s.tb.counter = 0) : judgeLocked s = { s with sync := s.sync.accepted 0 } := by
  rw [judgeLocked, if_pos hwindow, if_pos hgrace, if_pos hzero, onTimeEdge, SyncMonitor.measure_eq_accepted]

theorem judgeLocked_of_late (hwindow : s.tb.counter < s.tb.window) (hgrace : s.sync.grace = true)
    (hpos : 0 < s.tb.counter) :
    judgeLocked s = { s with tb := { s.tb with counter := 0 }, sync := s.sync.accepted (s.tb.counter : Int) } := by
  rw [judgeLocked, if_pos hwindow, if_pos hgrace, if_neg (Nat.ne_of_gt hpos), lateEdge, SyncMonitor.measure_eq_accepted]

theorem judgeLocked_of_closed (hwindow : s.tb.counter < s.tb.window) (hgrace : s.sync.grace = false) :
    judgeLocked s = s := by
  rw [judgeLocked, if_pos hwindow, hgrace]
  rfl

theorem judgeLocked_of_stray (hwindow : s.tb.window ≤ s.tb.counter)
    (hbefore : s.tb.counter + s.tb.window < s.tb.period) : judgeLocked s = s := by
  rw [judgeLocked, if_neg (Nat.not_lt.mpr hwindow), if_neg (Nat.not_le.mpr hbefore)]

theorem judgeLocked_of_early (hwindow : s.tb.window ≤ s.tb.counter)
    (hearly : s.tb.period ≤ s.tb.counter + s.tb.window) :
    judgeLocked s =
      { frameBegun ((s.tb.seq + 1) % 65536) false (missedAt s.tb.counter s) s with
        sync := s.sync.accepted (-((s.tb.period : Int) - (s.tb.counter : Int))) } := by
  rw [judgeLocked, if_neg (Nat.not_lt.mpr hwindow), if_pos hearly, earlyEdge, makeBoundary_edge_eq,
    SyncMonitor.measure_eq_accepted]
  rfl

end Locked

/-- Settles O11: the five ranges of the counter, each with its rule. -/
theorem edgeInLocked : Obligations.EdgeInLocked := by
  intro s awake hedge hwrap hlocked hwindow hperiod c taken
  have hexec {t : State} (h : judgeLocked (edgeCleared s) = t) : exec .syncEdge s = .next t := by
    rw [exec_syncEdge awake, takeEdge_of_no_wrap hedge (.inl hwrap), judgeEdge_of_locked (s := edgeCleared s) hlocked, h]
  refine ⟨fun hin hgrace hzero => ?_, fun hin hgrace hpos => ?_, fun hin hgrace => ?_, fun hout hbefore => ?_,
    fun hearly => ?_⟩
  · exact hexec (judgeLocked_of_onTime (s := edgeCleared s) hin hgrace hzero)
  · exact hexec (judgeLocked_of_late (s := edgeCleared s) hin hgrace hpos)
  · exact hexec (judgeLocked_of_closed (s := edgeCleared s) hin hgrace)
  · exact hexec (judgeLocked_of_stray (s := edgeCleared s) hout hbefore)
  · have hout : s.tb.window ≤ s.tb.counter := by omega
    exact hexec (judgeLocked_of_early (s := edgeCleared s) hout hearly)

/-! ### In ACQUIRING and COASTING -/

theorem judgeEdge_of_unmonitored {s : State} (h : s.tb.state = .stopped ∨ s.tb.state = .free) : judgeEdge s = s := by
  obtain h | h := h <;> rw [judgeEdge, h]

theorem judgeEdge_of_unlocked {s : State} (h : s.tb.state = .acquiring ∨ s.tb.state = .coasting) :
    judgeEdge s = acceptLock s := by
  obtain h | h := h <;> rw [judgeEdge, h]

/-- A state in which an edge has locked the timebase, SYNC_LOCKED left aside (R30). -/
def edgeLocked (m : SyncMonitor) (phase : Int) (u : State) : State :=
  { u with tb := { u.tb with state := .locked }, sync := { m.accepted phase with lockedOnce := true } }

/-- A SYNC_LOCKED that waits in a state. -/
def lockedWaiting (first : Bool) (u : State) : State := { u with due := { u.due with locked := some first } }

theorem takeLocked_of_lockedWaiting {u : State} {first : Bool} (h : u.due.locked = none) :
    takeLocked (lockedWaiting first u) = emitAll (.syncLocked first) u := by
  have hdue : { (lockedWaiting first u).due with locked := none } = u.due := by
    rw [← h]
    rfl
  rw [takeLocked_of_waiting rfl, hdue]
  rfl

theorem acceptLock_of_zero {s : State} (hzero : s.tb.counter = 0) (hperiod : 0 < s.tb.period)
    (hlocked : s.due.locked = none) :
    acceptLock s = emitAll (.syncLocked (!s.sync.lockedOnce)) (edgeLocked s.sync 0 s) := by
  have hphase : acquirePhase 0 s.tb.period = 0 := if_pos (by omega)
  have hnot : ¬ 0 < s.tb.counter := by omega
  rw [acceptLock, if_neg hnot, if_neg hnot, hzero, hphase, SyncMonitor.measure_eq_accepted]
  exact takeLocked_of_lockedWaiting (u := edgeLocked s.sync 0 s) hlocked

theorem acceptLock_of_pos {s : State} (hpos : 0 < s.tb.counter) :
    acceptLock s = releaseLocked (lockedWaiting (!s.sync.lockedOnce)
      (edgeLocked s.sync (acquirePhase s.tb.counter s.tb.period)
        (frameBegun ((s.tb.seq + 1) % 65536) false (missedAt s.tb.counter s) s))) := by
  rw [acceptLock, if_pos hpos, if_pos hpos, makeBoundary_edge_eq, SyncMonitor.measure_eq_accepted]
  rfl

theorem releaseLocked_of_lapse {u : State} (h : ∃ p : Port, u.sessions[p].lapses = true) : releaseLocked u = u :=
  if_pos ((someId_eq_true _).mpr h)

theorem releaseLocked_of_noLapse {u : State} (h : ∀ p : Port, u.sessions[p].lapses = false) :
    releaseLocked u = takeLocked u := by
  refine if_neg fun hsome => ?_
  obtain ⟨p, hp⟩ := (someId_eq_true _).mp hsome
  exact Bool.false_ne_true ((h p).symm.trans hp)

theorem not_running_or_wrap {s : State} (h : s.due.wrap = false ∨ s.tb.state = .stopped) :
    s.due.wrap = false ∨ running s = false := h.imp_right running_eq_false_iff.mpr

/-- Settles O12: a waiting SYNC_LOCKED first; then the edge by the wrap that may stand before it, the timebase's state and
the counter. -/
theorem edgeLocks : Obligations.EdgeLocks := by
  refine ⟨fun s i hreset hpart hrelease hlapse hbegin hbyte hend first hfirst => ?_, fun s awake => ⟨fun hno => ?_,
    fun hedge => ⟨fun hwrap hrun => ?_, fun hstate hwrap => ?_, fun hwrap hstate => ⟨fun hzero hperiod => ?_,
      fun hpos hperiod => ?_⟩⟩⟩⟩
  · rw [← takeLocked_of_waiting hfirst]
    exact (sendsLocked hpart hrelease hlapse hbegin hbyte hend).exec_eq hreset
  · rw [exec_syncEdge awake, takeEdge, hno]
    rfl
  · have htaken := takeWrap_of_due hwrap hrun
    have hawake : Awake (takeWrap s) := by rw [htaken]; exact awake
    have hstill : (takeWrap s).due.edge = true := by rw [htaken]; exact hedge
    have hdone : (takeWrap s).due.wrap = false := by rw [htaken]; rfl
    refine ⟨takeWrap s, exec_wrap awake, ?_, by rw [htaken]; rfl, hdone⟩
    rw [exec_syncEdge awake, exec_syncEdge hawake, takeEdge_of_due hedge, takeEdge_of_no_wrap hstill (.inl hdone)]
  · rw [exec_syncEdge awake, takeEdge_of_no_wrap hedge (not_running_or_wrap hwrap),
      judgeEdge_of_unmonitored (s := edgeCleared s) hstate]
    rfl
  · rw [exec_syncEdge awake, takeEdge_of_no_wrap hedge (.inl hwrap), judgeEdge_of_unlocked (s := edgeCleared s) hstate,
      acceptLock_of_zero (s := edgeCleared s) hzero hperiod awake.2]
    rfl
  · intro phase u
    have hexec : exec .syncEdge s = .next (releaseLocked (lockedWaiting (!s.sync.lockedOnce) u)) := by
      rw [exec_syncEdge awake, takeEdge_of_no_wrap hedge (.inl hwrap), judgeEdge_of_unlocked (s := edgeCleared s) hstate,
        acceptLock_of_pos (s := edgeCleared s) hpos]
      rfl
    refine ⟨fun hlapse => ?_, fun hlapse => ?_⟩
    · rw [hexec, releaseLocked_of_noLapse (u := lockedWaiting _ u) hlapse, takeLocked_of_lockedWaiting (u := u) awake.2]
    · rw [hexec, releaseLocked_of_lapse (u := lockedWaiting _ u) hlapse]
      rfl

end Sys2Proof.Machine
end

section
/-! SUPPORT. The schedule's judgement of a tick, its test read anew for each slot (spec/06 R91 to R94). -/

namespace Sys2Proof.Machine

/-! ### What result records do depends on the OPEN ports and the delivery records only -/

/-- Two states with the same OPEN ports and the same delivery records. -/
def SameQueues (s t : State) : Prop := (∀ p : Port, isOpen t p = isOpen s p) ∧ t.delivery = s.delivery

theorem SameQueues.placeResult {s t : State} (h : SameQueues s t) (p : Port) (r : ResultRec) :
    SameQueues (placeResult p r s) (placeResult p r t) := by
  obtain ⟨hopen, hdelivery⟩ := h
  unfold Machine.placeResult
  rw [hopen p, hdelivery]
  split
  · exact ⟨hopen, rfl⟩
  · exact ⟨hopen, hdelivery⟩

theorem SameQueues.deliverFor {s t : State} (h : SameQueues s t) (r : ConvRequest) (st : ResultStatus) :
    SameQueues (deliverFor r st s) (deliverFor r st t) := by
  unfold Machine.deliverFor
  split
  · exact h
  · exact h.placeResult _ _

theorem SameQueues.deliverAll {s t : State} (h : SameQueues s t) (rs : List ConvRequest) (st : ResultStatus) :
    SameQueues (deliverAll rs st s) (deliverAll rs st t) := by
  induction rs generalizing s t with
  | nil => exact h
  | cons r rs ih => exact ih (h.deliverFor r st)

theorem SameQueues.placeAll {s t : State} (h : SameQueues s t) (ms : List (Port × ResultRec)) :
    SameQueues (placeAll ms s) (placeAll ms t) := by
  induction ms generalizing s t with
  | nil => exact h
  | cons m ms ih => exact ih (h.placeResult m.1 m.2)

/-! ### Slots and entries put in place before or after triggers are taken are the same -/

/-- A state with another slot table and another commit list. -/
def withTable (slots : Vector (Option SlotRec) 32) (es : List Entry) (s : State) : State :=
  { s with slots := slots, commits := es }

section WithTable

variable (slots : Vector (Option SlotRec) 32) (es : List Entry) (s : State)

theorem withTable_self : withTable s.slots s.commits s = s := rfl

theorem withTable_twice (slots' : Vector (Option SlotRec) 32) (es' : List Entry) :
    withTable slots es (withTable slots' es' s) = withTable slots es s := rfl

theorem sameQueues_withTable : SameQueues s (withTable slots es s) := ⟨fun _ => rfl, rfl⟩

theorem deliverFor_withTable (r : ConvRequest) (st : ResultStatus) :
    deliverFor r st (withTable slots es s) = withTable slots es (deliverFor r st s) := by
  obtain ⟨d, hd⟩ := deliverFor_frame r st (withTable slots es s)
  obtain ⟨d', hd'⟩ := deliverFor_frame r st s
  obtain ⟨-, hsame⟩ := (sameQueues_withTable slots es s).deliverFor r st
  rw [hd, hd'] at hsame ⊢
  cases hsame
  rfl

theorem deliverAll_withTable (rs : List ConvRequest) (st : ResultStatus) :
    deliverAll rs st (withTable slots es s) = withTable slots es (deliverAll rs st s) := by
  obtain ⟨d, hd⟩ := deliverAll_frame rs st (withTable slots es s)
  obtain ⟨d', hd'⟩ := deliverAll_frame rs st s
  obtain ⟨-, hsame⟩ := (sameQueues_withTable slots es s).deliverAll rs st
  rw [hd, hd'] at hsame ⊢
  cases hsame
  rfl

theorem takeTrigger_withTable (r : ConvRequest) :
    takeTrigger r (withTable slots es s) = withTable slots es (takeTrigger r s) := by
  by_cases hroom : s.conv.queue.length < Config.queueCapacity
  · have hif (u : State) (h : u.conv.queue.length < Config.queueCapacity) : takeTrigger r u =
        match u.conv.inFlight with
        | none => takeHead { u with conv := { u.conv with queue := u.conv.queue ++ [r] } }
        | some _ => { u with conv := { u.conv with queue := u.conv.queue ++ [r] } } := if_pos h
    rw [hif s hroom, hif (withTable slots es s) hroom]
    have hconv : (withTable slots es s).conv = s.conv := rfl
    rw [hconv]
    cases s.conv.inFlight with
    | none => exact deliverAll_withTable slots es { s with conv := _ } _ _
    | some c => rfl
  · have hif (u : State) (h : ¬ u.conv.queue.length < Config.queueCapacity) :
        takeTrigger r u = deliverFor r (.missed .queueFull) u := if_neg h
    rw [hif s hroom, hif (withTable slots es s) hroom, deliverFor_withTable]

theorem takeTriggers_withTable (rs : List ConvRequest) :
    takeTriggers rs (withTable slots es s) = withTable slots es (takeTriggers rs s) := by
  induction rs generalizing s with
  | nil => rfl
  | cons r rs ih => rw [takeTriggers_cons, takeTriggers_cons, takeTrigger_withTable, ih]

end WithTable

/-! ### One firing -/

/-- The entries that stay when slot i, which held one record, holds another or none (R93). -/
def keepsEntry (i : Slot) (before after : Option SlotRec) (e : Entry) : Bool :=
  !e.removes i || before.isNone || after.isSome

theorem keepsEntry_of_kept {i : Slot} {before after : Option SlotRec} (h : before.isNone = true ∨ after.isSome = true)
    (es : List Entry) : es.filter (keepsEntry i before after) = es := by
  refine List.filter_eq_self.mpr fun e _ => ?_
  unfold keepsEntry
  obtain h | h := h
  · rw [h, Bool.or_true, Bool.true_or]
  · rw [h, Bool.or_true]

theorem keepsEntry_of_emptied {i : Slot} {r : SlotRec} (es : List Entry) :
    es.filter (keepsEntry i (some r) none) = es.filter fun e => !e.removes i := by
  refine List.filter_congr fun e _ => ?_
  simp [keepsEntry]

/-- A state in which slot i, which held one record, holds another or none. -/
def withSlot (i : Slot) (after : Option SlotRec) (s : State) : State :=
  withTable (s.slots.set i after) (s.commits.filter (keepsEntry i s.slots[i] after)) s

theorem withSlot_self {i : Slot} {s : State} {o : Option SlotRec} (h : s.slots[i] = o) : withSlot i o s = s := by
  subst h
  have hkept : s.slots[i].isNone = true ∨ s.slots[i].isSome = true := by cases s.slots[i] <;> simp
  rw [withSlot, keepsEntry_of_kept hkept, set_eq_self rfl, withTable_self]

theorem takeTriggers_withSlot (i : Slot) (o : Option SlotRec) (rs : List ConvRequest) (s : State) :
    takeTriggers rs (withSlot i o s) = withSlot i o (takeTriggers rs s) := by
  rw [withSlot, takeTriggers_withTable, withSlot, takeTriggers_slots, takeTriggers_commits]

theorem emptyOnce_of_once {i : Slot} {r : SlotRec} (h : r.mode = .once) (s : State) :
    emptyOnce i r s = withTable (s.slots.set i none) (s.commits.filter fun e => !e.removes i) s := by
  rw [emptyOnce, h]
  rfl

theorem emptyOnce_of_not_once {i : Slot} {r : SlotRec} (h : r.mode ≠ .once) (s : State) : emptyOnce i r s = s := by
  unfold emptyOnce
  cases hmode : r.mode with
  | once => exact absurd hmode h
  | every => rfl
  | divided => rfl

/-- Slot i fires: its trigger is taken, its record is what `afterFiring` says, and the entry that would remove an emptied
slot goes (R91, R93). -/
theorem fireSlot_of_some {i : Slot} {r : SlotRec} {s : State} (hslot : s.slots[i] = some r) :
    fireSlot i s = takeTriggers [triggerNow s i r] (withSlot i (r.afterFiring s.tb.seq) s) := by
  have hfired : fireSlot i s = emptyOnce i r (takeTriggers [triggerNow s i r]
      (withTable (s.slots.set i (some { r with lastFired := some s.tb.seq })) s.commits s)) := by
    rw [fireSlot, hslot]
    rfl
  rw [hfired, takeTriggers_withTable, withSlot, takeTriggers_withTable, hslot]
  by_cases hmode : r.mode = .once
  · have hafter : r.afterFiring s.tb.seq = none := if_pos hmode
    have hset : (s.slots.set i (some { r with lastFired := some s.tb.seq })).set i none = s.slots.set i none :=
      Vector.set_set ..
    rw [emptyOnce_of_once hmode, hafter, keepsEntry_of_emptied, withTable_twice]
    exact congrArg (fun sl => withTable sl _ _) hset
  · have hafter : r.afterFiring s.tb.seq = some { r with lastFired := some s.tb.seq } := if_neg hmode
    rw [emptyOnce_of_not_once hmode, hafter, keepsEntry_of_kept (.inr rfl)]

/-- One slot judged by a verdict of its test. -/
theorem judgeSlot_withSlot (b : Bool) {s : State} {i : Slot} :
    (if b && slotDue s i then fireSlot i s else s) =
      takeTriggers (triggerAt (fun _ => b) s i).toList (withSlot i (slotJudged (fun _ => b) s i) s) := by
  cases hslot : s.slots[i] with
  | none =>
    have hjudged : slotJudged (fun _ => b) s i = none := by rw [slotJudged, hslot]; rfl
    have htrigger : triggerAt (fun _ => b) s i = none := by rw [triggerAt, hslot]; rfl
    rw [slotDue_of_empty hslot, Bool.and_false, hjudged, htrigger, withSlot_self hslot]
    rfl
  | some r =>
    rw [slotDue_of_some hslot]
    cases hfires : b && firesNow s r with
    | true =>
      have hjudged : slotJudged (fun _ => b) s i = r.afterFiring s.tb.seq := by
        rw [slotJudged, hslot, Option.bind_some, hfires, if_pos rfl]
      have htrigger : triggerAt (fun _ => b) s i = some (triggerNow s i r) := by
        rw [triggerAt, hslot, Option.bind_some, hfires, if_pos rfl]
      rw [if_pos rfl, hjudged, htrigger]
      exact fireSlot_of_some hslot
    | false =>
      have hjudged : slotJudged (fun _ => b) s i = some r := by
        rw [slotJudged, hslot, Option.bind_some, hfires, if_neg Bool.false_ne_true]
      have htrigger : triggerAt (fun _ => b) s i = none := by
        rw [triggerAt, hslot, Option.bind_some, hfires, if_neg Bool.false_ne_true]
      rw [if_neg Bool.false_ne_true, hjudged, htrigger, withSlot_self hslot]
      rfl

/-! ### The firings of one judgement -/

/-- An entry stays after firings that left a slot table (R93). -/
def keptAfterFiring (before after : Vector (Option SlotRec) 32) (e : Entry) : Bool :=
  match e.action with
  | .laneSet _ _ => true
  | .sampleAdd _ => true
  | .sampleRemove i => before[i].isNone || after[i].isSome

theorem entriesAfterFiring_eq (before after : Vector (Option SlotRec) 32) (es : List Entry) :
    entriesAfterFiring before after es = es.filter (keptAfterFiring before after) := rfl

theorem keptAfterFiring_self (slots : Vector (Option SlotRec) 32) (e : Entry) : keptAfterFiring slots slots e = true := by
  unfold keptAfterFiring
  cases e.action with
  | laneSet | sampleAdd => rfl
  | sampleRemove i => cases hi : slots[i] <;> simp [hi]

/-- One slot more with a new record keeps or deletes the entries that remove that slot. -/
theorem keptAfterFiring_set {before after : Vector (Option SlotRec) 32} {i : Slot} (hsame : after[i] = before[i])
    (x : Option SlotRec) (e : Entry) :
    (keepsEntry i before[i] x e && keptAfterFiring before after e) = keptAfterFiring before (after.set i x) e := by
  unfold keepsEntry keptAfterFiring Entry.removes
  cases hact : e.action with
  | laneSet | sampleAdd => simp
  | sampleRemove j =>
    by_cases hj : i = j
    · subst hj
      have hself : (before[i].isNone || after[i].isSome) = true := by
        rw [hsame]
        cases before[i] <;> rfl
      dsimp only
      rw [hself, get_set_self]
      simp
    · have hne : ¬ j = i := fun h => hj h.symm
      dsimp only
      rw [get_set_of_ne _ _ hne]
      simp [hne]

/-- Firings that leave a slot alone keep the entry that removes it, so that its test says what it said before. -/
theorem notPassedOver_after {s u : State} {after : Vector (Option SlotRec) 32} {i : Slot} (hsame : after[i] = s.slots[i])
    (hcommits : u.commits = entriesAfterFiring s.slots after s.commits) : notPassedOver u i = notPassedOver s i := by
  unfold notPassedOver
  rw [hcommits, entriesAfterFiring_eq, List.any_filter]
  refine congrArg (fun f => !s.commits.any f) (funext fun e => ?_)
  cases hremoves : e.removes i with
  | false => rw [Bool.false_and, Bool.and_false]
  | true =>
    have hact : e.action = .sampleRemove i := of_decide_eq_true hremoves
    have hkept : keptAfterFiring s.slots after e = true := by
      simp only [keptAfterFiring, hact]
      rw [hsame]
      cases s.slots[i] <;> rfl
    rw [hkept, Bool.true_and]

/-- The test of the schedule's judgement: at a boundary it passes over the slots that R92 names. -/
def notPassedNow (s : State) (i : Slot) : Bool := !s.due.commit || notPassedOver s i

/-- The slots after some of them were judged. -/
def slotsAfterJudging (l : List Slot) (s : State) : Vector (Option SlotRec) 32 :=
  slotsFired (firesAmong (notPassedNow s) l s) s.tb.seq s.slots

/-- The state after some slots were judged, their triggers left aside. -/
def afterJudging (l : List Slot) (s : State) : State :=
  withTable (slotsAfterJudging l s) (entriesAfterFiring s.slots (slotsAfterJudging l s) s.commits) s

theorem slotsAfterJudging_nil (s : State) : slotsAfterJudging [] s = s.slots :=
  table_ext fun _ => slotsFired_of_none _ fun _ _ => rfl

theorem afterJudging_nil (s : State) : afterJudging [] s = s := by
  have hcommits : entriesAfterFiring s.slots s.slots s.commits = s.commits :=
    List.filter_eq_self.mpr fun e _ => keptAfterFiring_self s.slots e
  rw [afterJudging, slotsAfterJudging_nil, hcommits, withTable_self]

theorem slotsAfterJudging_of_not_mem {l : List Slot} {i : Slot} (h : i ∉ l) (s : State) :
    (slotsAfterJudging l s)[i] = s.slots[i] := by
  refine slotsFired_of_none _ fun r _ => ?_
  rw [firesAmong, decide_eq_false h, Bool.false_and]

/-- One slot more judged. -/
theorem afterJudging_append {l : List Slot} {i : Slot} (hnew : i ∉ l) (s : State) :
    afterJudging (l ++ [i]) s = withSlot i (slotJudged (notPassedNow s) s i) (afterJudging l s) := by
  have hslot := slotsAfterJudging_of_not_mem hnew s
  have hslots : slotsAfterJudging (l ++ [i]) s = (slotsAfterJudging l s).set i (slotJudged (notPassedNow s) s i) :=
    slotsFired_append_singleton _ s hnew
  have hentries : entriesAfterFiring s.slots (slotsAfterJudging (l ++ [i]) s) s.commits =
      (entriesAfterFiring s.slots (slotsAfterJudging l s) s.commits).filter
        (keepsEntry i (slotsAfterJudging l s)[i] (slotJudged (notPassedNow s) s i)) := by
    rw [hslots, hslot, entriesAfterFiring_eq, entriesAfterFiring_eq, List.filter_filter]
    exact List.filter_congr fun e _ => (keptAfterFiring_set hslot _ e).symm
  rw [afterJudging, hentries, hslots]
  rfl

/-- Some slots judged one after another, the test read on the state that the ones before left. -/
theorem judgeSlots_afterJudging {l : List Slot} {s : State} (hdistinct : l.Nodup) :
    l.foldl (fun s i => if notPassedNow s i && slotDue s i then fireSlot i s else s) s =
      takeTriggers (l.filterMap (triggerAt (notPassedNow s) s)) (afterJudging l s) := by
  induction l using List.reverseRecOn with
  | nil => rw [afterJudging_nil]; rfl
  | append_singleton l i ih =>
    obtain ⟨hl, hnew⟩ : l.Nodup ∧ i ∉ l := by
      rw [← List.concat_eq_append, List.nodup_concat] at hdistinct
      exact hdistinct.symm
    rw [List.foldl_append, List.foldl_cons, List.foldl_nil, ih hl, afterJudging_append hnew, List.filterMap_append,
      takeTriggers_append, judgeSlot_withSlot]
    obtain ⟨c, d, hu⟩ := takeTriggers_frame (l.filterMap (triggerAt (notPassedNow s) s)) (afterJudging l s)
    have hslot := slotsAfterJudging_of_not_mem hnew s
    have htest : notPassedNow (takeTriggers (l.filterMap (triggerAt (notPassedNow s) s)) (afterJudging l s)) i =
        notPassedNow s i := by
      rw [hu]
      exact congrArg (fun b => !s.due.commit || b) (notPassedOver_after hslot rfl)
    rw [htest]
    have htrigger : triggerAt (fun _ => notPassedNow s i)
        (takeTriggers (l.filterMap (triggerAt (notPassedNow s) s)) (afterJudging l s)) i =
          triggerAt (notPassedNow s) s i := by
      rw [hu]
      exact triggerAt_congr (s := s) hslot rfl rfl
    have hjudged : slotJudged (fun _ => notPassedNow s i)
        (takeTriggers (l.filterMap (triggerAt (notPassedNow s) s)) (afterJudging l s)) i =
          slotJudged (notPassedNow s) s i := by
      rw [hu]
      exact slotJudged_congr (s := s) hslot rfl
    rw [htrigger, hjudged, ← takeTriggers_withSlot]
    cases h : triggerAt (notPassedNow s) s i <;> simp [h]

/-- A firing judgement of every slot, on a converter in range. -/
theorem fireAmong_notPassed {s : State} (hfits : ConverterFits s) :
    fireAmong notPassedNow s =
      deliverAll (turnedAway s ((List.finRange 32).filterMap (triggerAt (notPassedNow s) s))) (.missed .queueFull)
        { afterJudging (List.finRange 32) s with
          conv := convAfter s ((List.finRange 32).filterMap (triggerAt (notPassedNow s) s)) } := by
  rw [fireAmong, judgeSlots_afterJudging (List.nodup_finRange 32),
    takeTriggers_eq (s := afterJudging (List.finRange 32) s) hfits (triggerTime_of_mem (s := s))]
  rfl

/-! ### The schedule's judgement of a tick -/

/-- The row of SLOT_FIRE. -/
theorem exec_slotFire {s : State} (h : Awake s) : exec .slotFire s = .next (fireDue s) := by
  have hrow : exec .slotFire s = .next (happens fireDue s) := rfl
  rw [hrow, happens_of_awake fireDue s h]

theorem handedOver_eq_placeAll (ms : List (Port × ResultRec)) (s : State) : handedOver ms s = placeAll ms s := rfl

theorem notPassedNow_eq (s : State) (i : Slot) : notPassedNow s i = !(s.due.commit && removedNext s i) :=
  (Bool.not_and _ _).symm

/-- What fires in a tick, as the claims speak of it (R91, R92). -/
def firesInTick (s : State) (i : Slot) (r : SlotRec) : Bool :=
  running s && decide (s.tb.counter = r.offset) && r.dueUnder s.tb.seq && !(s.due.commit && removedNext s i)

theorem firesInTick_eq (s : State) (i : Slot) (r : SlotRec) :
    (notPassedNow s i && firesNow s r) = firesInTick s i r := by
  rw [Bool.and_comm, notPassedNow_eq]
  rfl

/-- The triggers of a tick, in ascending slot order. -/
def triggersInTick (s : State) : List ConvRequest :=
  (List.finRange 32).filterMap fun i =>
    s.slots[i].bind fun r => if firesInTick s i r then some (triggerNow s i r) else none

theorem triggersInTick_eq (s : State) :
    (List.finRange 32).filterMap (triggerAt (notPassedNow s) s) = triggersInTick s := by
  refine congrArg (fun f => (List.finRange 32).filterMap f) (funext fun i => ?_)
  simp only [triggerAt, firesInTick_eq]

theorem slotsAfterJudging_all (s : State) :
    slotsAfterJudging (List.finRange 32) s = slotsFired (firesInTick s) s.tb.seq s.slots := by
  have hall : firesAmong (notPassedNow s) (List.finRange 32) s = firesInTick s := by
    funext i r
    rw [firesAmong, decide_eq_true (List.mem_finRange i), Bool.true_and, firesInTick_eq]
  rw [slotsAfterJudging, hall]

/-- The judgement of a tick: the records of a cut frame, the slots fired, and the triggers reaching the converter. -/
theorem fireDue_eq {s : State} (hfits : ConverterFits s) :
    fireDue s = deliverAll (turnedAway s (triggersInTick s)) (.missed .queueFull)
      { handCut s with
        slots := slotsFired (firesInTick s) s.tb.seq s.slots
        commits := entriesAfterFiring s.slots (slotsFired (firesInTick s) s.tb.seq s.slots) s.commits
        conv := convAfter s (triggersInTick s) } := by
  obtain ⟨d, hd⟩ := handCut_frame s
  have hfire : fireDue s = fireAmong notPassedNow (handCut s) := rfl
  rw [hfire, hd, fireAmong_notPassed (s := { s with due := _, delivery := d }) hfits, triggersInTick_eq, afterJudging,
    slotsAfterJudging_all]
  rfl

/-- Settles O20: `fireDue_eq` gives every field. -/
theorem slotsFire : Obligations.SlotsFire := by
  intro s awake hfits
  refine ⟨fireDue s, exec_slotFire awake, ?_⟩
  beta_reduce
  intro due triggers
  obtain ⟨d, hd⟩ := deliverAll_frame (turnedAway s (triggersInTick s)) (.missed .queueFull)
    { handCut s with
      slots := slotsFired (firesInTick s) s.tb.seq s.slots
      commits := entriesAfterFiring s.slots (slotsFired (firesInTick s) s.tb.seq s.slots) s.commits
      conv := convAfter s (triggersInTick s) }
  have hfields := (fireDue_eq hfits).trans hd
  obtain ⟨sl, es, c, d', hframe⟩ := fireDue_frame s
  refine ⟨?slots, ?commits, ?converter, ?delivery, ?frame⟩
  case slots => rw [hfields]; rfl
  case commits => rw [hfields]
  case converter => rw [hfields]; rfl
  case delivery =>
    have hcut : SameQueues (handedOver s.due.cut s) (handCut s) := by
      rw [handedOver_eq_placeAll, handCut]
      exact SameQueues.placeAll (s := s) (t := { s with due := { s.due with schedule := false, cut := [] } })
        ⟨fun _ => rfl, rfl⟩ _
    obtain ⟨hopen, hdelivery⟩ := hcut
    obtain ⟨-, hsame⟩ := SameQueues.deliverAll (s := handedOver s.due.cut s)
      (t := { handCut s with
        slots := slotsFired (firesInTick s) s.tb.seq s.slots
        commits := entriesAfterFiring s.slots (slotsFired (firesInTick s) s.tb.seq s.slots) s.commits
        conv := convAfter s (triggersInTick s) }) ⟨hopen, hdelivery⟩ (turnedAway s (triggersInTick s)) (.missed .queueFull)
    rw [fireDue_eq hfits]
    exact hsame
  case frame => rw [hframe]

end Sys2Proof.Machine
end

section
/-! SUPPORT. An edge that cuts a frame: the records it leaves to the schedule's response (spec/06 R92, R96, R97). -/

namespace Sys2Proof.Machine

/-! ### What result records do depends on the OPEN ports and the result queues only -/

/-- Two states with the same OPEN ports, result queues and tallies of lost results. -/
def AlikeResults (s t : State) : Prop :=
  (∀ p : Port, isOpen t p = isOpen s p) ∧
    ∀ p : Port, t.delivery[p].results = s.delivery[p].results ∧ t.delivery[p].lostResults = s.delivery[p].lostResults

theorem AlikeResults.placeResult {s t : State} (h : AlikeResults s t) (p : Port) (r : ResultRec) :
    AlikeResults (placeResult p r s) (placeResult p r t) := by
  obtain ⟨hopen, hresults⟩ := h
  unfold Machine.placeResult
  rw [hopen p]
  split
  · refine ⟨hopen, fun q => ?_⟩
    dsimp only
    rw [get_update, get_update]
    split
    · exact Delivery.pushResult_results_congr r (hresults p)
    · exact hresults q
  · exact ⟨hopen, hresults⟩

theorem AlikeResults.deliverFor {s t : State} (h : AlikeResults s t) (r : ConvRequest) (st : ResultStatus) :
    AlikeResults (deliverFor r st s) (deliverFor r st t) := by
  unfold Machine.deliverFor
  split
  · exact h
  · exact h.placeResult _ _

theorem AlikeResults.deliverAll {s t : State} (h : AlikeResults s t) (rs : List ConvRequest) (st : ResultStatus) :
    AlikeResults (deliverAll rs st s) (deliverAll rs st t) := by
  induction rs generalizing s t with
  | nil => exact h
  | cons r rs ih => exact ih (h.deliverFor r st)

theorem AlikeResults.placeAll {s t : State} (h : AlikeResults s t) (ms : List (Port × ResultRec)) :
    AlikeResults (placeAll ms s) (placeAll ms t) := by
  induction ms generalizing s t with
  | nil => exact h
  | cons m ms ih => exact ih (h.placeResult m.1 m.2)

/-! ### The edge -/

/-- The frame that an edge begins in state s, whose wrap is not due. -/
def frameCut (s : State) : State :=
  frameBegun ((s.tb.seq + 1) % 65536) false (missedAt s.tb.counter s) (edgeCleared s)

/-- A state is the frame that an edge begins, but for the timebase's state, the monitor, a waiting SYNC_LOCKED and the
event queues. -/
def CutsFrame (s t : State) : Prop := ∃ st sync locked d,
  t = { frameCut s with
    tb := { (frameCut s).tb with state := st }, sync := sync, due := { (frameCut s).due with locked := locked }
    delivery := d } ∧
  ∀ p : Port, d[p].results = s.delivery[p].results ∧ d[p].lostResults = s.delivery[p].lostResults

/-- Sending SYNC_LOCKED leaves the frame and the result queues alone. -/
theorem CutsFrame.takeLocked {s t : State} (h : CutsFrame s t) : CutsFrame s (takeLocked t) := by
  obtain ⟨st, sync, locked, d, rfl, hd⟩ := h
  cases locked with
  | none => exact ⟨st, sync, none, d, takeLocked_of_not_due _ rfl, hd⟩
  | some first =>
    refine ⟨st, sync, none, _, takeLocked_of_waiting rfl, fun p => ?_⟩
    obtain ⟨hresults, hlost⟩ := emit_results (fun _ => some (.syncLocked first)) _ p.val p.isLt
    obtain ⟨hr, hl⟩ := hd p
    exact ⟨hresults.trans hr, hlost.trans hl⟩

theorem CutsFrame.releaseLocked {s t : State} (h : CutsFrame s t) : CutsFrame s (releaseLocked t) := by
  obtain ⟨-, hrelease⟩ | ⟨-, hrelease⟩ := releaseLocked_cases t
  · rw [hrelease]; exact h
  · rw [hrelease]; exact h.takeLocked

theorem takeEdge_cutsFrame {s : State} (hedge : s.due.edge = true) (hwrap : s.due.wrap = false)
    (hpos : 0 < s.tb.counter) (hwindow : s.tb.window ≤ s.tb.period / 8)
    (hstate : s.tb.state = .acquiring ∨ s.tb.state = .coasting ∨
      (s.tb.state = .locked ∧ s.tb.period ≤ s.tb.counter + s.tb.window)) : CutsFrame s (takeEdge s) := by
  rw [takeEdge_of_no_wrap hedge (.inl hwrap)]
  have hlocks (h : s.tb.state = .acquiring ∨ s.tb.state = .coasting) : CutsFrame s (judgeEdge (edgeCleared s)) := by
    rw [judgeEdge_of_unlocked (s := edgeCleared s) h, acceptLock_of_pos (s := edgeCleared s) hpos]
    have hwaiting : CutsFrame s (lockedWaiting (!s.sync.lockedOnce)
        (edgeLocked s.sync (acquirePhase s.tb.counter s.tb.period) (frameCut s))) :=
      ⟨_, _, _, _, rfl, fun p => ⟨rfl, rfl⟩⟩
    exact hwaiting.releaseLocked
  obtain hstate | hstate | ⟨hstate, hearly⟩ := hstate
  · exact hlocks (.inl hstate)
  · exact hlocks (.inr hstate)
  · have hout : s.tb.window ≤ s.tb.counter := by omega
    rw [judgeEdge_of_locked (s := edgeCleared s) hstate, judgeLocked_of_early (s := edgeCleared s) hout hearly]
    exact ⟨_, _, _, _, rfl, fun p => ⟨rfl, rfl⟩⟩

/-! ### The response -/

/-- The triggers turned away are among those handed over. -/
theorem mem_of_turnedAway {s : State} (hfits : ConverterFits s) {rs : List ConvRequest} {r : ConvRequest}
    (h : r ∈ turnedAway s rs) : r ∈ rs := by
  unfold turnedAway at h
  split at h
  · cases h
  · exact List.mem_cons_of_mem _ (List.mem_of_mem_drop h)
  · rw [List.drop_append, List.drop_eq_nil_of_le hfits.1, List.nil_append] at h
    exact List.mem_of_mem_drop h

theorem mem_triggersInTick {s : State} {r : ConvRequest} (h : r ∈ triggersInTick s) :
    r.offset = s.tb.counter ∧ r.seq = s.tb.seq := by
  obtain ⟨i, -, hi⟩ := List.mem_filterMap.mp h
  obtain ⟨record, -, hrecord⟩ := Option.bind_eq_some_iff.mp hi
  split at hrecord
  case isTrue hfires =>
    cases hrecord
    simp only [firesInTick, Bool.and_eq_true, decide_eq_true_eq] at hfires
    obtain ⟨⟨⟨-, hcounter⟩, -⟩, -⟩ := hfires
    exact ⟨hcounter.symm, rfl⟩
  case isFalse => cases hrecord

/-- The result records of a judgement: those of the cut frame, and then those of the triggers turned away. -/
theorem fireDue_results {u w : State} (hfits : ConverterFits u) (h : AlikeResults w (handCut u)) (p : Port) :
    (fireDue u).delivery[p].results =
        (deliverAll (turnedAway u (triggersInTick u)) (.missed .queueFull) w).delivery[p].results ∧
      (fireDue u).delivery[p].lostResults =
        (deliverAll (turnedAway u (triggersInTick u)) (.missed .queueFull) w).delivery[p].lostResults := by
  rw [fireDue_eq hfits]
  generalize handCut u = v at h ⊢
  obtain ⟨hopen, hresults⟩ := h
  obtain ⟨-, hsame⟩ := AlikeResults.deliverAll (s := w)
    (t := { v with
      slots := slotsFired (firesInTick u) u.tb.seq u.slots
      commits := entriesAfterFiring u.slots (slotsFired (firesInTick u) u.tb.seq u.slots) u.commits
      conv := convAfter u (triggersInTick u) }) ⟨hopen, hresults⟩ (turnedAway u (triggersInTick u)) (.missed .queueFull)
  exact hsame p

theorem counted_state (r : Session) : r.counted.state = r.state := by
  rw [← Session.countFrame_eq_counted, Session.countFrame_state]

theorem CutsFrame.alikeResults {s t : State} (h : CutsFrame s t) : AlikeResults s t := by
  obtain ⟨st, sync, locked, d, rfl, hd⟩ := h
  refine ⟨fun p => ?_, hd⟩
  have hsession : (s.sessions.map Session.counted)[p].state = s.sessions[p].state := by
    rw [get_map, counted_state]
  exact congrArg (fun x => decide (x = SessionState.opened)) hsession

/-- Settles O22: the edge leaves the records due, and the response hands them over before those of its own triggers. -/
theorem shortFrameRecords : Obligations.ShortFrameRecords := by
  intro s awake hedge hwrap hcut hpos _ hwindow hstate hfits
  have hcuts := takeEdge_cutsFrame hedge hwrap hpos hwindow hstate
  refine ⟨takeEdge s, exec_syncEdge awake, ?_⟩
  beta_reduce
  intro missed
  have hreset : (takeEdge s).inReset = false := by
    obtain ⟨st, sync, locked, d, ht, -⟩ := hcuts
    rw [ht]
    exact awake.1
  have hsent := hcuts.takeLocked
  have hresponse : exec .slotFire (takeEdge s) = .next (fireDue (takeLocked (takeEdge s))) := by
    rw [(sendsLocked_of_happens (f := fireDue) fun s => rfl).exec_eq hreset,
      exec_slotFire ⟨(takeLocked_inReset _).trans hreset, takeLocked_locked _⟩]
  generalize takeEdge s = t at hcuts hsent hresponse
  generalize takeLocked t = u at hsent hresponse
  have hdue (v : State) (h : CutsFrame s v) : v.due.cut = missed := by
    obtain ⟨st, sync, locked, d, rfl, -⟩ := h
    exact (congrArg (· ++ missedAt s.tb.counter s) hcut).trans (List.nil_append _)
  have hseq : u.tb.seq = t.tb.seq ∧ u.tb.counter = 0 ∧ ConverterFits u := by
    obtain ⟨st, sync, locked, d, rfl, -⟩ := hcuts
    obtain ⟨st', sync', locked', d', rfl, -⟩ := hsent
    exact ⟨rfl, rfl, hfits⟩
  obtain ⟨hseq, hzero, hfitsU⟩ := hseq
  obtain ⟨hopenT, hresultsT⟩ := hcuts.alikeResults
  refine ⟨hdue t hcuts, ?_, ?_, ?_, hresultsT, fireDue u, hresponse, ?_, turnedAway u (triggersInTick u), ?_, ?_⟩
  · obtain ⟨st, sync, locked, d, rfl, -⟩ := hcuts; rfl
  · obtain ⟨st, sync, locked, d, rfl, -⟩ := hcuts; rfl
  · obtain ⟨st, sync, locked, d, rfl, -⟩ := hcuts; rfl
  · obtain ⟨sl, es, c, d, hframe⟩ := fireDue_frame u
    rw [hframe]
  · intro r hr
    obtain ⟨hoffset, hrseq⟩ := mem_triggersInTick (mem_of_turnedAway hfitsU hr)
    exact ⟨hoffset.trans hzero, hrseq.trans hseq⟩
  · intro told p
    have hcutU : AlikeResults (missed.foldl (fun v m => placeResult m.1 m.2 v) s) (handCut u) := by
      obtain ⟨hopenU, hresultsU⟩ := hsent.alikeResults
      rw [handCut, hdue u hsent]
      exact AlikeResults.placeAll (s := s) (t := { u with due := { u.due with schedule := false, cut := [] } })
        ⟨hopenU, hresultsU⟩ missed
    exact fireDue_results hfitsU hcutU p

end Sys2Proof.Machine
end

section
/-! SUPPORT. One LANE_SET alone in the commit list, applied by the list's response to a boundary (spec/04 R64, R65, spec/05
R72). -/

namespace Sys2Proof.Machine

/-! ### The TRIP events of one lane to one owner -/

/-- The TRIP events of a lane to its owner, one for each line of a set, ascending (log 13). -/
def laneTrips (p : Port) (l : Lane) (added : LineSet) : List (Port × Line × Lane) :=
  (members added).map fun k => (p, k, l)

section LaneTrips

variable (p : Port) (l : Lane) (added : LineSet)

theorem linesTold_laneTrips (trips : Vector TripLine 4) (k : Line) : (linesTold (laneTrips p l added) trips)[k] =
    { trips[k] with informed := if added[k] then trips[k].informed.set p true else trips[k].informed } := by
  have hany (q : Port) : ((laneTrips p l added).any fun x => decide (x.1 = q ∧ x.2.1 = k)) =
      (decide (q = p) && added[k]) := by
    rw [Bool.eq_iff_iff, List.any_eq_true, Bool.and_eq_true, decide_eq_true_eq]
    constructor
    · rintro ⟨x, hx, hk⟩
      obtain ⟨j, hj, rfl⟩ := List.mem_map.mp hx
      obtain ⟨hq, hjk⟩ := of_decide_eq_true hk
      subst hjk
      exact ⟨hq.symm, (mem_members added _).mp hj⟩
    · rintro ⟨rfl, hk⟩
      exact ⟨(q, k, l), List.mem_map.mpr ⟨k, (mem_members added k).mpr hk, rfl⟩, decide_eq_true ⟨rfl, rfl⟩⟩
  have hinformed : (setOf fun q =>
      trips[k].informed[q] || (laneTrips p l added).any fun x => decide (x.1 = q ∧ x.2.1 = k)) =
      if added[k] then trips[k].informed.set p true else trips[k].informed := by
    refine table_ext fun q => ?_
    rw [get_setOf, hany]
    cases added[k] with
    | false => rw [Bool.and_false, Bool.or_false, if_neg Bool.false_ne_true]
    | true =>
      rw [Bool.and_true, if_pos rfl, get_set]
      by_cases hq : q = p
      · rw [decide_eq_true hq, Bool.or_true, if_pos hq.symm]
      · rw [decide_eq_false hq, Bool.or_false, if_neg (Ne.symm hq)]
  rw [← hinformed]
  exact get_tabulate _ k

theorem pushTrips_laneTrips_self (seq : Nat) (d : Delivery) : d.pushTrips p seq (laneTrips p l added) =
    (members added).foldl (fun d k => d.pushEvent (.trip k ((Vector.replicate 16 false).set l true)) seq) d := by
  have hall : ((laneTrips p l added).filter fun x => decide (x.1 = p)) = laneTrips p l added := by
    refine List.filter_eq_self.mpr fun x hx => ?_
    obtain ⟨k, -, rfl⟩ := List.mem_map.mp hx
    exact decide_eq_true rfl
  rw [Delivery.pushTrips, hall, laneTrips, List.foldl_map]

theorem pushTrips_laneTrips_other {q : Port} (hq : q ≠ p) (seq : Nat) (d : Delivery) :
    d.pushTrips q seq (laneTrips p l added) = d := by
  have hnone : ((laneTrips p l added).filter fun x => decide (x.1 = q)) = [] := by
    refine List.filter_eq_nil_iff.mpr fun x hx => ?_
    obtain ⟨k, -, rfl⟩ := List.mem_map.mp hx
    exact fun h => hq (of_decide_eq_true h).symm
  rw [Delivery.pushTrips, hnone, List.foldl_nil]

end LaneTrips

/-! ### The response -/

theorem emit_none (s : State) : emit (fun _ => none) s = s := by
  have hdelivery : (emit (fun _ => none) s).delivery = s.delivery := table_ext fun p => emit_delivery _ s p.val p.isLt
  obtain ⟨d, hd⟩ := emit_frame (fun _ => none) s
  rw [hd] at hdelivery ⊢
  cases hdelivery
  rfl

/-- With no group to report the reports change nothing (R78). -/
theorem reportGroups_of_none {s : State} (h : s.groupReport = Vector.replicate 4 false) (es : List Entry) :
    reportGroups es s = s := by
  have hnone : (fun p : Port => if s.groupReport[p] then some (Event.groupApplied (releasedOf p es)) else none) =
      fun _ => none := by
    funext p
    rw [h, get_replicate]
    rfl
  rw [reportGroups, hnone, emit_none, ← h]

/-- The response to a boundary with one LANE_SET in the list (R72). -/
theorem applyCommits_of_laneSet {s : State} {p : Port} {l : Lane} {w : LaneSettings} {released : Bool}
    (hgroups : s.groupReport = Vector.replicate 4 false)
    (hcommits : s.commits = [{ port := p, action := .laneSet l w, held := false, released := released }])
    (howner : s.lanes[l].status.owner? = some p) :
    applyCommits s = tellTrips (laneTrips p l (laneAfterSet s w s.lanes[l]).2)
      { s with
        commits := []
        due := { s.due with commit := false }
        lanes := s.lanes.set l (laneAfterSet s w s.lanes[l]).1 } := by
  have happlied : applyLaneSet l w { s with commits := [], due := { s.due with commit := false } } =
      tellTrips (laneTrips p l (laneAfterSet s w s.lanes[l]).2)
        { s with
          commits := []
          due := { s.due with commit := false }
          lanes := s.lanes.set l (laneAfterSet s w s.lanes[l]).1 } :=
    (applyLaneSet_eq l w _).trans (congrArg (fun xs => tellTrips xs _) (laneSetTrips_of_owner (s := s) howner))
  have hfire (u : State) : fireAmong (fun _ _ => false) u = u :=
    fireAmong_of_none _ u fun _ => Bool.false_and _
  have hlist : applyCommits s = reportGroups [{ port := p, action := .laneSet l w, held := false, released := released }]
      (fireAmong (fun _ _ => false) (applyLaneSet l w { s with commits := [], due := { s.due with commit := false } })) := by
    rw [applyCommits, hcommits]
    rfl
  rw [hlist, hfire, happlied]
  refine reportGroups_of_none ?_ _
  rw [tellTrips_eq]
  exact hgroups

/-- Settles O15: the lane as `laneAfterSet` says, and the TRIP events of the lines it adds. -/
theorem laneSetApplied : Obligations.LaneSetApplied := by
  intro s p l w released awake hdue hgroups hopen hcommits forced applied
  have hresult (howner : s.lanes[l].status.owner? = some p) {lane : LaneRec} {added : LineSet}
      (hafter : laneAfterSet s w s.lanes[l] = (lane, added)) : applied lane added := by
    have hexec : exec .commitApply s = .next (tellTrips (laneTrips p l added)
        { s with commits := [], due := { s.due with commit := false }, lanes := s.lanes.set l lane }) := by
      rw [exec_commitApply awake, takeCommits, if_pos hdue, applyCommits_of_laneSet hgroups hcommits howner, hafter]
    rw [tellTrips_eq] at hexec
    refine ⟨_, hexec, rfl, fun k => linesTold_laneTrips p l added s.trips k, fun q hq => ?_, ?_⟩
    · refine (deliveryTold_getElem _ _ q).trans ?_
      rw [pushTrips_laneTrips_other p l added hq]
      split <;> rfl
    · refine (deliveryTold_getElem _ _ p).trans ((if_pos (isOpen_iff.mpr hopen)).trans ?_)
      exact pushTrips_laneTrips_self p l added _ _
  clear_value applied
  cases hst : s.lanes[l].status with
  | free => trivial
  | orphaned => trivial
  | leased q =>
    rintro rfl
    have howner : s.lanes[l].status.owner? = some q := congrArg LaneStatus.owner? hst
    have hafter := laneAfterSet_of_leased (s := s) (w := w) hst
    refine ⟨fun hnone => hresult howner ?_, fun hsome => hresult howner ?_⟩
    · rw [hafter, if_neg fun h => ?_]
      · rfl
      · obtain ⟨k, hk⟩ := anyInForce_iff.mp h
        exact Bool.false_ne_true ((hnone k).symm.trans hk)
    · rw [hafter, if_pos (anyInForce_iff.mpr hsome)]
      rfl
  | tripped q cause rearm =>
    rintro rfl added
    have howner : s.lanes[l].status.owner? = some q := congrArg LaneStatus.owner? hst
    refine hresult howner ?_
    rw [laneAfterSet, hst]

end Sys2Proof.Machine
end

section
/-! SUPPORT. One tick: what the tick before it owes, then the advance (spec/01 R1 to R5, spec/02 R21, R22). -/

namespace Sys2Proof.Machine

/-! ### The advance -/

theorem stamp_succ (n : Nat) :
    (n + 1) % Config.stampModulus = if n % 4294967296 = 4294967295 then 0 else n % 4294967296 + 1 := by
  change (n + 1) % 4294967296 = _
  split <;> omega

theorem tick_counts (s : State) : s.tb.tick =
    if running s = true ∧ s.tb.counter + 1 < s.tb.period then { s.tb with counter := s.tb.counter + 1 } else s.tb := by
  unfold Timebase.tick running
  simp only [Bool.and_eq_true, decide_eq_true_eq]

theorem wraps_iff (s : State) :
    s.tb.wraps = decide (running s = true ∧ s.tb.period ≤ s.tb.counter + 1) := by
  rw [Bool.eq_iff_iff, decide_eq_true_eq, Timebase.wraps, running, Bool.and_eq_true, Bool.not_eq_true',
    decide_eq_false_iff_not, Nat.not_lt]

theorem monitored_iff (st : TbState) :
    st.monitored = true ↔ st = .acquiring ∨ st = .locked ∨ st = .coasting := by
  cases st <;> simp [TbState.monitored]

theorem interval_counts (n : Nat) : min Config.intervalMax (n + 1) = if n < 65535 then n + 1 else 65535 := by
  change min 65535 (n + 1) = _
  split <;> omega

theorem sync_counts (s : State) : s.sync.tick s.tb.state.monitored =
    if s.tb.state = .acquiring ∨ s.tb.state = .locked ∨ s.tb.state = .coasting then
      { s.sync with intervalCounter := s.sync.intervalCounter.map fun n => if n < 65535 then n + 1 else 65535 }
    else s.sync := by
  unfold SyncMonitor.tick
  simp only [monitored_iff, interval_counts]

theorem ownership_monitored (o : Ownership) : o.monitored = decide (o ≠ .free) := by
  cases o <;> simp [Ownership.monitored]

/-- The state one tick on, as the claims speak of it. -/
def ticked (levels : TickPins) (s : State) : State :=
  { s with
    tickStamp := if s.tickStamp % 4294967296 = 4294967295 then 0 else s.tickStamp % 4294967296 + 1
    tb := if running s = true ∧ s.tb.counter + 1 < s.tb.period then { s.tb with counter := s.tb.counter + 1 } else s.tb
    sync :=
      if s.tb.state = .acquiring ∨ s.tb.state = .locked ∨ s.tb.state = .coasting then
        { s.sync with intervalCounter := s.sync.intervalCounter.map fun n => if n < 65535 then n + 1 else 65535 }
      else s.sync
    conv := { s.conv with inFlight := s.conv.inFlight.map fun c => { c with elapsed := c.elapsed + 1 } }
    pins := { syncIn := levels.syncIn, trip := levels.trip, ain := levels.ain }
    due := { s.due with
      wrap := decide (running s = true ∧ s.tb.period ≤ s.tb.counter + 1)
      edge := levels.syncIn && !s.pins.syncIn
      trip := Vector.ofFn fun k => decide (s.trips[k].ownership ≠ .free) } }

theorem advance_eq_ticked (levels : TickPins) (s : State) : advance levels s = ticked levels s := by
  rw [advance, stamp_succ, tick_counts, sync_counts, wraps_iff]
  simp only [ownership_monitored]
  rfl

/-- The row of TICK, out of reset. -/
theorem exec_tick (levels : TickPins) {s : State} (hreset : s.inReset = false) :
    exec (.tick levels) s = .next (advance levels (settle (takeLocked s))) := by
  have hrow : exec (.tick levels) s = .next (happens (fun s => advance levels (settle s)) s) := rfl
  rw [hrow, happens, whileRunning, if_neg (Bool.eq_false_iff.mp hreset)]

/-! ### A tick that owes nothing -/

theorem fireDue_of_nothing {s : State} (hdue : s.due = Due.none) (hslots : ∀ i : Slot, slotDue s i = false) :
    fireDue s = s := by
  have hcut : handCut s = s := by
    have hsame : { s.due with schedule := false, cut := [] } = s.due := by rw [hdue]; rfl
    have hnil : s.due.cut = [] := by rw [hdue]; rfl
    rw [handCut, hsame, hnil]
    rfl
  rw [fireDue, hcut]
  exact fireAmong_of_none _ s fun i => by rw [hslots i, Bool.and_false]

theorem takeResponses_of_quiet {s : State} (h : Quiet s) : takeResponses s = s := by
  have hfinish := finishBoundary_of_quiet s h
  obtain ⟨hschedule, hlocked, -⟩ := h
  rwa [finishBoundary, takeLocked_of_not_due s hlocked, takeSchedule_of_not_due s hschedule] at hfinish

theorem takeSample_of_not_due {t : Line} {s : State} (h : s.due.trip[t] = false) : takeSample t s = s :=
  if_neg (Bool.eq_false_iff.mp h)

theorem takeCompletion_of_unfinished {s : State} (h : ∀ c ∈ s.conv.inFlight, c.elapsed < 40) : takeCompletion s = s := by
  cases hflight : s.conv.inFlight with
  | none => exact takeCompletion_of_idle hflight
  | some c => exact takeCompletion_of_early hflight (h c hflight)

theorem settle_of_nothing {s : State} (h : OwesNothing s) : settle s = s := by
  obtain ⟨-, hquiet, hdue, hgrace, hslots, hflight⟩ := h
  have hwrap : s.due.wrap = false := by rw [hdue]; rfl
  have hedge : ¬ s.due.edge = true := by rw [hdue]; exact Bool.false_ne_true
  have hlocked : s.due.locked = none := by rw [hdue]; rfl
  have hsample (t : Line) : s.due.trip[t] = false := by rw [hdue]; exact get_replicate _ t
  rw [settle, takeWrap_of_not_due (.inl hwrap), fireDue_of_nothing hdue hslots, takeGrace,
    if_neg (Bool.eq_false_iff.mp hgrace), takeCompletion_of_unfinished hflight, takeEdge, if_neg hedge,
    takeLocked_of_not_due s hlocked, fireDue_of_nothing hdue hslots, takeResponses_of_quiet hquiet,
    takeSample_of_not_due (hsample 0), takeSample_of_not_due (hsample 1), takeSample_of_not_due (hsample 2),
    takeSample_of_not_due (hsample 3)]

/-! ### What is owed, happening by happening -/

theorem afterAll_cons {c : Instr} {s t : State} (h : exec c s = .next t) (cs : List Instr) :
    afterAll (c :: cs) s = afterAll cs t := by
  rw [afterAll, List.foldl_cons, h]
  rfl

/-- A happening taken in an awake state, one of several. -/
theorem afterAll_happens {c : Instr} {f : State → State} {s : State} (hrow : exec c s = .next (happens f s))
    (h : Awake s) (cs : List Instr) : afterAll (c :: cs) s = afterAll cs (f s) :=
  afterAll_cons (by rw [hrow, happens_of_awake f s h]) cs

theorem afterAll_lapse {p : Port} {s : State} (h : Awake s) (cs : List Instr) :
    afterAll (.lapse p :: cs) s = afterAll cs (takeLapse p s) :=
  afterAll_cons (congrArg _ (whileRunning_of_awake (takeLapse p) s h)) cs

/-- A state stays awake through what leaves the reset pin and a waiting SYNC_LOCKED alone. -/
theorem Awake.of_outside {s t : State} (h : Awake s) (hout : SameOutside s t) (hlocked : t.due.locked = none) :
    Awake t := by
  obtain ⟨hreset, -⟩ := hout
  exact ⟨hreset.trans h.1, hlocked⟩

/-- The happenings owed up to the edge, taken in an awake state. -/
def settledToEdge (s : State) : State := takeEdge (takeCompletion (takeGrace (fireDue (takeWrap s))))

theorem settledToEdge_inReset {s : State} (h : Awake s) : (settledToEdge s).inReset = false := by
  obtain ⟨hreset, -⟩ := (takeWrap_outside s).trans ((fireDue_outside _).trans ((takeGrace_outside _).trans
    ((takeCompletion_outside _).trans (takeEdge_outside _))))
  exact hreset.trans h.1

theorem afterAll_toEdge {s : State} (h : Awake s) (cs : List Instr) :
    afterAll (.wrap :: .slotFire :: .graceExpiry :: .conversionComplete :: .syncEdge :: cs) s =
      afterAll cs (settledToEdge s) := by
  have hwrap : Awake (takeWrap s) := h.of_outside (takeWrap_outside s) ((takeWrap_locked s).trans h.2)
  have hfire : Awake (fireDue (takeWrap s)) :=
    hwrap.of_outside (fireDue_outside _) ((fireDue_locked _).trans hwrap.2)
  have hgrace : Awake (takeGrace (fireDue (takeWrap s))) :=
    hfire.of_outside (takeGrace_outside _) ((takeGrace_locked _).trans hfire.2)
  have hdone : Awake (takeCompletion (takeGrace (fireDue (takeWrap s)))) :=
    hgrace.of_outside (takeCompletion_outside _) ((takeCompletion_locked _).trans hgrace.2)
  rw [afterAll_happens (f := takeWrap) rfl h, afterAll_happens (f := fireDue) rfl hwrap,
    afterAll_happens (f := takeGrace) rfl hfire, afterAll_happens (f := takeCompletion) rfl hgrace,
    afterAll_happens (f := takeEdge) rfl hdone]
  rfl

theorem takeLapse_awake {s : State} (h : Awake s) (p : Port) : Awake (takeLapse p s) :=
  h.of_outside (takeLapse_outside p s) (takeLapse_locked h.2)

theorem afterAll_responses {s : State} (h : Awake s) (cs : List Instr) :
    afterAll (.commitApply :: .proposalCommit :: .proposalExpiry :: .lapse 0 :: .lapse 1 :: .lapse 2 :: .lapse 3 ::
      .lanesResumed :: cs) s = afterAll cs (takeResponses s) := by
  have hcommits : Awake (takeCommits s) := h.of_outside (takeCommits_outside s) ((takeCommits_locked s).trans h.2)
  have hcommit : Awake (takeProposalCommit (takeCommits s)) :=
    hcommits.of_outside (takeProposalCommit_outside _) ((takeProposalCommit_locked _).trans hcommits.2)
  have hexpiry : Awake (takeAgreement (takeCommits s)) :=
    hcommits.of_outside (takeAgreement_outside _) ((takeAgreement_locked _).trans hcommits.2)
  have hlapse0 := takeLapse_awake hexpiry 0
  have hlapse1 := takeLapse_awake hlapse0 1
  have hlapse2 := takeLapse_awake hlapse1 2
  have hlapse3 := takeLapse_awake hlapse2 3
  rw [afterAll_happens (f := takeCommits) rfl h, afterAll_happens (f := takeProposalCommit) rfl hcommits,
    afterAll_happens (f := takeProposalExpiry) rfl hcommit, ← takeAgreement, afterAll_lapse hexpiry,
    afterAll_lapse hlapse0, afterAll_lapse hlapse1, afterAll_lapse hlapse2, afterAll_happens (f := takeResume) rfl hlapse3]
  rfl

theorem takeResponses_awake {s : State} (h : Awake s) : Awake (takeResponses s) :=
  h.of_outside (takeResponses_outside s) (takeResponses_locked h.2)

theorem takeSample_awake {s : State} (h : Awake s) (t : Line) : Awake (takeSample t s) :=
  h.of_outside (takeSample_outside t s) ((takeSample_locked t s).trans h.2)

theorem afterAll_samples {s : State} (h : Awake s) :
    afterAll [.tripPinSample 0, .tripPinSample 1, .tripPinSample 2, .tripPinSample 3] s =
      takeSample 3 (takeSample 2 (takeSample 1 (takeSample 0 s))) := by
  have h0 := takeSample_awake h 0
  have h1 := takeSample_awake h0 1
  have h2 := takeSample_awake h1 2
  rw [afterAll_happens (f := takeSample 0) rfl h, afterAll_happens (f := takeSample 1) rfl h0,
    afterAll_happens (f := takeSample 2) rfl h1, afterAll_happens (f := takeSample 3) rfl h2]
  rfl

/-- The happenings that are owed, in the model's order, settle the tick. -/
theorem afterAll_owed {s : State} (h : Awake s) : afterAll owed s = settle s := by
  have hreset : (settledToEdge s).inReset = false := settledToEdge_inReset h
  have hsent : Awake (takeLocked (settledToEdge s)) := ⟨(takeLocked_inReset _).trans hreset, takeLocked_locked _⟩
  have hfire : Awake (fireDue (takeLocked (settledToEdge s))) :=
    hsent.of_outside (fireDue_outside _) ((fireDue_locked _).trans hsent.2)
  have hslot : exec .slotFire (settledToEdge s) = .next (fireDue (takeLocked (settledToEdge s))) := by
    rw [(sendsLocked_of_happens (f := fireDue) fun s => rfl).exec_eq hreset, exec_slotFire hsent]
  rw [owed, afterAll_toEdge h, afterAll_cons hslot, afterAll_responses hfire,
    afterAll_samples (takeResponses_awake hfire)]
  rfl

/-- The first of what is owed sends a waiting SYNC_LOCKED. -/
theorem afterAll_owed_takeLocked {s : State} (hreset : s.inReset = false) :
    afterAll owed s = afterAll owed (takeLocked s) := by
  have hwrap : exec .wrap s = exec .wrap (takeLocked s) :=
    (sendsLocked_of_happens (f := takeWrap) fun s => rfl).exec_eq hreset
  have hawake : Awake (takeLocked s) := ⟨(takeLocked_inReset s).trans hreset, takeLocked_locked s⟩
  rw [owed, afterAll_cons (hwrap.trans (exec_wrap hawake)), afterAll_cons (exec_wrap hawake)]

/-- Settles O6: the advance is `ticked`; what is owed first is `settle`. -/
theorem tickAdvances : Obligations.TickAdvances := by
  intro levels s hreset tickedOf
  have hticked (u : State) : advance levels u = tickedOf u := advance_eq_ticked levels u
  refine ⟨fun hnothing => ?_, ?_⟩
  · have hlocked : s.due.locked = none := by
      obtain ⟨-, -, hdue, -⟩ := hnothing
      rw [hdue]
      rfl
    rw [exec_tick levels hreset, takeLocked_of_not_due s hlocked, settle_of_nothing hnothing, hticked]
  · have hawake : Awake (takeLocked s) := ⟨(takeLocked_inReset s).trans hreset, takeLocked_locked s⟩
    rw [exec_tick levels hreset, afterAll_owed_takeLocked hreset, afterAll_owed hawake, hticked]

end Sys2Proof.Machine
end

section
/-! SUPPORT. What the output pins show (spec/01 1.6, spec/04 4.2, spec/08 8.6, spec/11 11.1): the window of a lane over the
counter values of a frame, and each pin by its terms. -/

namespace Sys2Proof.Machine

/-! ### The window of a lane -/

/-- The counter of a frame lies in a window: after its start in the same frame, or in the part that
wraps past the end of the frame. -/
theorem inWindow_iff {tb : Timebase} {w : LaneSettings} (hcounter : tb.counter < tb.period) (hon : w.onAt < tb.period) :
    inWindow tb w = true ↔
      (w.onAt ≤ tb.counter ∧ tb.counter < w.onAt + w.length) ∨ tb.counter + tb.period < w.onAt + w.length := by
  rw [inWindow, decide_eq_true_iff]
  by_cases hafter : w.onAt ≤ tb.counter
  · rw [Int.emod_eq_of_lt (by omega) (by omega)]
    omega
  · have hshift : ((tb.counter : Int) - (w.onAt : Int)) % (tb.period : Int) =
        (tb.counter : Int) - (w.onAt : Int) + (tb.period : Int) := by
      rw [← Int.add_emod_right, Int.emod_eq_of_lt (by omega) (by omega)]
    rw [hshift]
    omega

theorem ActiveLevel.level_eq (a : ActiveLevel) : a.level = if a = .high then .high else .low := by cases a <;> rfl

theorem ActiveLevel.inactive_eq (a : ActiveLevel) : a.inactive = if a = .high then .low else .high := by cases a <;> rfl

theorem laneDrive_eq (s : State) (l : Lane) :
    laneDrive s l =
      match s.lanes[l].status with
      | .free => .hiz
      | .leased _ =>
          if running s && inWindow s.tb s.lanes[l].settings then s.lanes[l].settings.activeLevel.level
          else s.lanes[l].settings.activeLevel.inactive
      | .tripped _ _ _ => s.lanes[l].settings.safeLevel
      | .orphaned => s.lanes[l].settings.safeLevel := rfl

/-! ### The other pins -/

theorem syncOut_iff (s : State) : syncOut s = true ↔ running s = true ∧ s.tb.counter ≤ 7 := by
  rw [syncOut, Bool.and_eq_true, decide_eq_true_iff]
  exact and_congr_right fun _ => Nat.lt_succ_iff

theorem Session.wants_iff (r : Session) (n : Nat) : r.wants n = true ↔ ∃ t ∈ r.resultThreshold, t ≤ n := by
  rw [Session.wants]
  cases r.resultThreshold with
  | none => simp
  | some t => simp

theorem isEmpty_eq_false_iff_ne {α : Type} (xs : List α) : (!xs.isEmpty) = true ↔ xs ≠ [] := by cases xs <;> simp

theorem attn_iff (s : State) (p : Port) :
    attn s p = true ↔ s.sessions[p].state = .opened ∧
      (s.delivery[p].events ≠ [] ∨ (∃ n ∈ s.sessions[p].resultThreshold, n ≤ s.delivery[p].results.length) ∨
        0 < s.delivery[p].lostResults ∨ 0 < s.delivery[p].lostEvents) := by
  rw [attn, Bool.and_eq_true, isOpen_iff, Bool.or_eq_true, Bool.or_eq_true, Bool.or_eq_true, isEmpty_eq_false_iff_ne,
    Session.wants_iff, decide_eq_true_iff, decide_eq_true_iff, or_assoc, or_assoc]

theorem sdo_of_inactive {s : State} {p : Port} (h : s.links[p].active = false) : sdo s p = .hiz :=
  if_neg (Bool.eq_false_iff.mp h)

theorem sdo_of_active {s : State} {p : Port} (h : s.links[p].active = true) :
    sdo s p =
      match s.links[p].held.frame[s.links[p].clocked]? with
      | some b => if b.getLsbD 7 then .high else .low
      | none => .low := by
  rw [sdo, if_pos h, Response.outByte, List.getD_eq_getElem?_getD]
  cases s.links[p].held.frame[s.links[p].clocked]? with
  | none => rfl
  | some b => rfl

/-- Settles O10: `laneDrive_eq` with `inWindow_iff`, then the other pins by their terms. -/
theorem outputPins : Obligations.OutputPins := by
  refine ⟨fun s l => ?_, syncOut_iff, fun s p => ⟨attn_iff s p, sdo_of_inactive, sdo_of_active⟩⟩
  have hdrive := laneDrive_eq s l
  cases hstatus : s.lanes[l].status with
  | free | tripped | orphaned => rw [hdrive, hstatus]
  | leased p =>
    rw [hstatus] at hdrive
    refine ⟨fun hstopped => ?_, fun hrunning hcounter hon _ => ?_⟩
    · rw [hdrive, hstopped, ActiveLevel.inactive_eq]
      rfl
    · rw [hdrive, hrunning, Bool.true_and, ActiveLevel.level_eq, ActiveLevel.inactive_eq]
      exact if_congr (inWindow_iff hcounter hon) rfl rfl

end Sys2Proof.Machine
end

section
/-! SUPPORT. `status` (spec/03 R42, R43): the payload of each selector is the one of the state before the silence was reset,
with the count before it, and stands in the encoding of spec/11 R172. -/

namespace Sys2Proof.Machine

/-! ### What the silence count leaves of a payload -/

theorem heardIfOpen_eq_sessions (p : Port) (s : State) :
    heardIfOpen p s = { s with sessions := (heardIfOpen p s).sessions } := by
  by_cases h : s.sessions[p].state = .opened
  · rw [heardIfOpen_of_open h]
    rfl
  · rw [heardIfOpen_of_not_open h]

/-- Only the silence count of its port is not as before. -/
theorem heardIfOpen_session (p : Port) (s : State) :
    ∃ count : Option Nat, (heardIfOpen p s).sessions[p] = { s.sessions[p] with silenceCount := count } := by
  by_cases h : s.sessions[p].state = .opened
  · refine ⟨some 0, ?_⟩
    rw [heardIfOpen_of_open h]
    exact get_set_self ..
  · exact ⟨s.sessions[p].silenceCount, by rw [heardIfOpen_of_not_open h]⟩

theorem sessionPayload_heardIfOpen (p : Port) (before : Option Nat) (s : State) :
    sessionPayload p before (heardIfOpen p s) = sessionPayload p before s := by
  obtain ⟨count, hsession⟩ := heardIfOpen_session p s
  have hbound : bound (heardIfOpen p s) p = bound s p := by rw [heardIfOpen_eq_sessions]; rfl
  have hdelivery : (heardIfOpen p s).delivery = s.delivery := by rw [heardIfOpen_eq_sessions]
  rw [sessionPayload, sessionPayload, hsession, hbound, hdelivery]

theorem statusPayload_heardIfOpen (p : Port) (before : Option Nat) (s : State) (selector : Selector) :
    statusPayload p before (heardIfOpen p s) selector = statusPayload p before s selector := by
  cases selector with
  | part | lanes | trips | slots =>
    rw [heardIfOpen_eq_sessions]
    rfl
  | session => exact sessionPayload_heardIfOpen p before s

/-! ### The row of `status` -/

/-- The row of `status`. -/
theorem exec_status (p : Port) (tag selector : Nat) (s : State) :
    exec (.status p tag selector) s =
      .next (whileRunning (takeRequest p tag fun before => cmdStatus p selector before) s) := rfl

theorem exec_status_of_selector {p : Port} {selector : Nat} {sel : Selector} {s : State} (h : Hears s p)
    (hsel : selectorOf? selector = some sel) (tag : Nat) :
    exec (.status p tag selector) s =
      .next (replied p tag .ok (statusPayload p s.sessions[p].silenceCount s sel) (heardIfOpen p s)) := by
  rw [exec_status]
  refine congrArg _ (takeRequest_of_verdict h ?_)
  rw [cmdStatus, hsel, ← statusPayload_heardIfOpen]
  rfl

theorem selectorOf?_of_le {n : Nat} (h : 5 ≤ n) : selectorOf? n = none := by
  obtain ⟨m, rfl⟩ := Nat.exists_eq_add_of_le' h
  rfl

theorem exec_status_of_range {p : Port} {selector : Nat} {s : State} (h : Hears s p) (hsel : 5 ≤ selector) (tag : Nat) :
    exec (.status p tag selector) s = .next (replied p tag .range [] (heardIfOpen p s)) := by
  rw [exec_status]
  refine congrArg _ (takeRequest_of_verdict h ?_)
  rw [cmdStatus, selectorOf?_of_le hsel]
  rfl

/-! ### The fields in their encoding -/

theorem flag_eq (b : Bool) : (if b then [1#8] else [0#8]) = [flagByte b] := (flagByte_eq b).symm

theorem laneEntries_eq (s : State) (l : Lane) :
    laneEntries s l = s.commits.countP fun e =>
      match e.action with
      | .laneSet m _ => decide (m = l)
      | .sampleAdd _ => false
      | .sampleRemove _ => false :=
  List.countP_eq_length_filter.symm

/-- Settles O35: the row gives the payload of the selector's definition; its fields are those stated, one by one. -/
theorem statusReports : Obligations.StatusReports := by
  intro p tag s h two one flag opt level tbState source reports
  have hreports (selector : Nat) (sel : Selector) (hsel : selectorOf? selector = some sel) (bytes : List Byte)
      (hbytes : statusPayload p s.sessions[p].silenceCount s sel = bytes) : reports selector bytes := by
    rw [← hbytes]
    exact exec_status_of_selector h hsel tag
  have hflag (b : Bool) : flag b = [flagByte b] := flag_eq b
  have hset (v : IdSet 4) : one (bits v) = [setByte v] := by rw [setByte_eq_bits]
  have hlanes (v : LaneSet) : two (bits v) = laneSetBytes v := (laneSetBytes_eq_bits v).symm
  have hopt (f : Nat → List Byte) (o : Option Nat) : opt f o = optBytes f o := by cases o <;> rfl
  have hlevel (v : Level) : level v = [byteOf v.code] := by cases v <;> rfl
  refine ⟨fun selector hsel => exec_status_of_range h hsel tag, hreports 0 .part rfl _ ?_, hreports 1 .session rfl _ ?_,
    bound_iff, hreports 2 .lanes rfl _ ?_, hreports 3 .trips rfl _ ?_, hreports 4 .slots rfl _ ?_⟩
  · rw [statusPayload, partPayload, hflag]
    cases hproposal : s.agreement.proposal with
    | none => rfl
    | some pr =>
      rw [summaryBytes]
      dsimp only
      rw [hset, hset]
      cases pr.source <;> rfl
  · rw [statusPayload, sessionPayload, hflag, hflag, hopt, hopt, hopt]
    simp only [List.append_assoc]
    rfl
  · refine List.flatMap_congr fun l _ => ?_
    rw [lanePayload, hset, hset, hflag, hlevel, hlevel, laneEntries_eq]
    cases s.lanes[l].status <;> rfl
  · refine List.flatMap_congr fun k _ => ?_
    rw [linePayload, hlanes]
    cases s.trips[k].ownership <;> rfl
  · refine List.flatMap_congr fun i _ => ?_
    rw [slotPayload]
    cases hslot : s.slots[i] with
    | none => rfl
    | some r => rfl

end Sys2Proof.Machine
end

section
/-! SUPPORT. What comes before a request (spec/01 R17, spec/03 R49; log 5): after all that a boundary calls for nothing of it
is left, and after a lapse that lapse is not due, so that a request taken then is the same request. -/

namespace Sys2Proof.Machine

/-! ### What a boundary still calls for -/

/-- The agreement unit has a response to give. -/
def AgreementOwed (s : State) : Prop := s.due.agreement = true ∧ s.agreement.proposal ≠ none

/-- No response to a boundary, other than SYNC_LOCKED and a lapse, becomes due from one state to the next. -/
def DuesFall (s t : State) : Prop :=
  (t.due.schedule = true → s.due.schedule = true) ∧ (t.due.commit = true → s.due.commit = true) ∧
    (t.due.resume = true → s.due.resume = true) ∧ (AgreementOwed t → AgreementOwed s)

theorem DuesFall.rfl {s : State} : DuesFall s s := ⟨id, id, id, id⟩

theorem DuesFall.trans {s t u : State} (h : DuesFall s t) (h' : DuesFall t u) : DuesFall s u := by
  obtain ⟨hschedule, hcommit, hresume, hagreement⟩ := h
  obtain ⟨hschedule', hcommit', hresume', hagreement'⟩ := h'
  exact ⟨hschedule ∘ hschedule', hcommit ∘ hcommit', hresume ∘ hresume', hagreement ∘ hagreement'⟩

theorem DuesFall.not_schedule {s t : State} (h : DuesFall s t) (hs : s.due.schedule = false) :
    t.due.schedule = false := by
  obtain ⟨hschedule, -⟩ := h
  exact Bool.eq_false_iff.mpr fun ht => Bool.eq_false_iff.mp hs (hschedule ht)

theorem DuesFall.not_commit {s t : State} (h : DuesFall s t) (hs : s.due.commit = false) : t.due.commit = false := by
  obtain ⟨-, hcommit, -⟩ := h
  exact Bool.eq_false_iff.mpr fun ht => Bool.eq_false_iff.mp hs (hcommit ht)

theorem DuesFall.not_agreement {s t : State} (h : DuesFall s t) (hs : ¬ AgreementOwed s) : ¬ AgreementOwed t := by
  obtain ⟨-, -, -, hagreement⟩ := h
  exact fun ht => hs (hagreement ht)

/-! ### Each response clears its own and calls for no other -/

theorem takeLocked_falls (s : State) : DuesFall s (takeLocked s) := by
  obtain ⟨d, h⟩ := takeLocked_frame s
  rw [h]
  exact ⟨id, id, id, id⟩

theorem fireDue_falls (s : State) : DuesFall s (fireDue s) ∧ (fireDue s).due.schedule = false := by
  obtain ⟨sl, es, c, d, h⟩ := fireDue_frame s
  rw [h]
  exact ⟨⟨fun hfalse => absurd hfalse Bool.false_ne_true, id, id, id⟩, rfl⟩

theorem takeSchedule_falls (s : State) : DuesFall s (takeSchedule s) ∧ (takeSchedule s).due.schedule = false := by
  unfold takeSchedule
  split
  case isTrue => exact fireDue_falls s
  case isFalse h => exact ⟨.rfl, Bool.eq_false_iff.mpr h⟩

theorem takeCommits_falls (s : State) : DuesFall s (takeCommits s) ∧ (takeCommits s).due.commit = false := by
  unfold takeCommits
  split
  case isTrue =>
    obtain ⟨es, la, sl, c, tr, d, h⟩ := applyCommits_frame s
    rw [h]
    exact ⟨⟨id, fun hfalse => absurd hfalse Bool.false_ne_true, id, id⟩, rfl⟩
  case isFalse h => exact ⟨.rfl, Bool.eq_false_iff.mpr h⟩

theorem not_agreementOwed_of_not_due {s : State} (h : s.due.agreement = false) : ¬ AgreementOwed s := by
  rintro ⟨hdue, -⟩
  exact Bool.eq_false_iff.mp h hdue

theorem endProposal_falls (n : Nat) (outcome : ProposalOutcome) (s : State) :
    DuesFall s (endProposal n outcome s) ∧ ¬ AgreementOwed (endProposal n outcome s) := by
  have hnot : ¬ AgreementOwed (endProposal n outcome s) := not_agreementOwed_of_not_due rfl
  exact ⟨⟨id, id, id, fun h => absurd h hnot⟩, hnot⟩

theorem closeAgreement_falls (s : State) : DuesFall s (closeAgreement s) ∧ ¬ AgreementOwed (closeAgreement s) := by
  have hnot : ¬ AgreementOwed (closeAgreement s) := not_agreementOwed_of_not_due rfl
  exact ⟨⟨id, id, id, fun h => absurd h hnot⟩, hnot⟩

theorem takeAgreement_of_not_owed {s : State} (h : ¬ AgreementOwed s) : takeAgreement s = s := by
  cases hdue : s.due.agreement with
  | false => exact takeAgreement_of_not_due s hdue
  | true =>
    have hnone : s.agreement.proposal = none := by
      by_contra hsome
      exact h ⟨hdue, hsome⟩
    have hcommit : takeProposalCommit s = s := by rw [takeProposalCommit, hdue, hnone]
    rw [takeAgreement, hcommit, takeProposalExpiry, hdue, hnone]

theorem takeAgreement_falls (s : State) : DuesFall s (takeAgreement s) ∧ ¬ AgreementOwed (takeAgreement s) := by
  by_cases howed : AgreementOwed s
  · obtain ⟨hdue, hsome⟩ := howed
    obtain ⟨pr, hpr⟩ := Option.ne_none_iff_exists'.mp hsome
    cases hstate : pr.state with
    | accepted =>
      have hcommit : takeProposalCommit s = commitProposal pr s := by
        simp only [takeProposalCommit, hdue, hpr, hstate]
      have hexpiry : takeAgreement s = commitProposal pr s := by
        rw [takeAgreement, hcommit]
        exact takeProposalExpiry_of_not_due rfl
      rw [hexpiry]
      exact endProposal_falls ..
    | opened =>
      have hcommit : takeProposalCommit s = s := by simp only [takeProposalCommit, hdue, hpr, hstate]
      have hexpiry : takeAgreement s =
          if pr.framesLeft = 0 then endProposal pr.id .expired s else closeAgreement s := by
        rw [takeAgreement, hcommit]
        simp only [takeProposalExpiry, hdue, hpr, hstate]
      rw [hexpiry]
      split
      · exact endProposal_falls ..
      · exact closeAgreement_falls s
  · rw [takeAgreement_of_not_owed howed]
    exact ⟨.rfl, howed⟩

theorem Tells.falls {s t : State} (h : Tells s t) : DuesFall s t := by
  obtain ⟨d, rfl, -⟩ := h
  exact ⟨id, id, id, id⟩

theorem withoutPort_falls (k : EndKind) (p : Port) (s : State) : DuesFall s (withoutPort k p s) := by
  refine ⟨id, id, id, ?_⟩
  rintro ⟨hdue, hsome⟩
  have hbefore : responseAfterEnd p s = true := hdue
  rw [responseAfterEnd, Bool.and_eq_true] at hbefore
  obtain ⟨hdue', -⟩ := hbefore
  refine ⟨hdue', fun hnone => hsome ?_⟩
  rw [withoutPort_proposal, hnone]
  rfl

theorem releaseLocked_falls (s : State) : DuesFall s (releaseLocked s) := by
  unfold releaseLocked
  split
  · exact .rfl
  · exact takeLocked_falls s

theorem takeLapse_falls (p : Port) (s : State) : DuesFall s (takeLapse p s) := by
  unfold takeLapse
  split
  · exact (((withoutPort_falls .lapse p s).trans (endSession_tells .lapse p s).falls).trans
      (emitAll_tells ..).falls).trans (releaseLocked_falls _)
  · exact .rfl

theorem takeResume_falls (s : State) : DuesFall s (takeResume s) ∧ (takeResume s).due.resume = false := by
  obtain ⟨la, d, h⟩ := takeResume_frame s
  rw [h]
  exact ⟨⟨id, id, fun hfalse => absurd hfalse Bool.false_ne_true, id⟩, rfl⟩

/-! ### Nothing is left -/

theorem takeResponses_falls (s : State) :
    DuesFall s (takeResponses s) ∧ (takeResponses s).due.commit = false ∧ ¬ AgreementOwed (takeResponses s) ∧
      (takeResponses s).due.resume = false := by
  obtain ⟨hcommits, hcommit⟩ := takeCommits_falls s
  obtain ⟨hagreements, hagreement⟩ := takeAgreement_falls (takeCommits s)
  have hlapses := (((takeLapse_falls 0 (takeAgreement (takeCommits s))).trans (takeLapse_falls 1 _)).trans
    (takeLapse_falls 2 _)).trans (takeLapse_falls 3 _)
  obtain ⟨hresumes, hresume⟩ := takeResume_falls
    (takeLapse 3 (takeLapse 2 (takeLapse 1 (takeLapse 0 (takeAgreement (takeCommits s))))))
  have hrest := hlapses.trans hresumes
  exact ⟨(hcommits.trans hagreements).trans hrest, (hagreements.trans hrest).not_commit hcommit,
    hrest.not_agreement hagreement, hresume⟩

/-- All that a boundary calls for, taken twice, is taken once: nothing of it is left. -/
theorem finishBoundary_twice (s : State) : finishBoundary (finishBoundary s) = finishBoundary s := by
  obtain ⟨-, hschedule⟩ := takeSchedule_falls (takeLocked s)
  obtain ⟨hfall, hcommit, hagreement, hresume⟩ : DuesFall (takeSchedule (takeLocked s)) (finishBoundary s) ∧
      (finishBoundary s).due.commit = false ∧ ¬ AgreementOwed (finishBoundary s) ∧
      (finishBoundary s).due.resume = false := takeResponses_falls _
  have hlapse := finishBoundary_noLapse s
  have hdone : takeSchedule (takeLocked (finishBoundary s)) = finishBoundary s := by
    rw [takeLocked_of_not_due _ (finishBoundary_locked s)]
    exact takeSchedule_of_not_due _ (hfall.not_schedule hschedule)
  rw [finishBoundary, hdone, takeResponses, takeCommits_of_not_due _ hcommit, takeAgreement_of_not_owed hagreement,
    takeLapse_of_not_due 0 _ (hlapse 0), takeLapse_of_not_due 1 _ (hlapse 1), takeLapse_of_not_due 2 _ (hlapse 2),
    takeLapse_of_not_due 3 _ (hlapse 3), takeResume_of_not_due _ hresume]

/-- A lapse taken twice is taken once: its port is then no longer at its limit. -/
theorem takeLapse_twice (p : Port) (s : State) : takeLapse p (takeLapse p s) = takeLapse p s := by
  refine takeLapse_of_not_due p _ ?_
  rw [takeLapse_lapses, decide_eq_false fun h => h rfl, Bool.and_false]

/-! ### The session check -/

/-- A request that asks for an OPEN session: each but `session_open`, `status` and `nop` (R36). -/
def asksForSession (r : Request) : Bool :=
  match r with
  | .nop | .status _ | .sessionOpen .. => false
  | _ => true

theorem dispatch_of_asksForSession {r : Request} (h : asksForSession r = true) (p : Port) (before : Option Nat) :
    ∃ cmd, dispatch p before r = inSession p cmd := by
  cases r with
  | nop | status | sessionOpen => cases h
  | _ => exact ⟨_, rfl⟩

theorem setsTimebase_iff {r : Request} : setsTimebase r = true ↔ r = .tbStart ∨ r = .tbStop := by
  rw [setsTimebase, Bool.or_eq_true, decide_eq_true_iff, decide_eq_true_iff]

/-- A request's row, out of reset. -/
theorem exec_toInstr_of_running {s : State} (hreset : s.inReset = false) (p : Port) (tag : Nat) (r : Request) :
    exec (r.toInstr p tag) s = .next (takes p tag r s) := by
  rw [exec_toInstr, whileRunning, hreset, if_neg Bool.false_ne_true]

/-- A request that hears, quiet if it sets the timebase, is judged on the state as it stands. -/
theorem exec_toInstr_of_verdict {r : Request} {p : Port} {tag : Nat} {s t : State} {st : Status} {bytes : List Byte}
    (h : Hears s p) (hquiet : r = .tbStart ∨ r = .tbStop → Quiet s)
    (hverdict : dispatch p s.sessions[p].silenceCount r (heardIfOpen p s) = (t, { status := st, payload := bytes })) :
    exec (r.toInstr p tag) s = .next (replied p tag st bytes t) := by
  have htakes : takes p tag r s = takeRequest p tag (fun before => dispatch p before r) s := by
    cases hr : setsTimebase r with
    | false => rw [takes_of_plain hr]
    | true => rw [takes_of_timebase hr, takeTimebaseRequest_of_quiet _ _ _ _ (hquiet (setsTimebase_iff.mp hr))]
  have hrow := takeRequest_of_verdict (cmd := fun before => dispatch p before r) (tag := tag) h hverdict
  obtain ⟨hawake, -⟩ := h
  rw [whileRunning_of_awake _ s hawake] at hrow
  obtain ⟨hreset, -⟩ := hawake
  rw [exec_toInstr_of_running hreset, htakes, hrow]

/-- A request of a session that is not OPEN, refused by the session check. -/
theorem exec_toInstr_of_not_open {r : Request} {p : Port} {tag : Nat} {s : State} {st : Status}
    (hasks : asksForSession r = true) (h : Hears s p) (hquiet : r = .tbStart ∨ r = .tbStop → Quiet s)
    (hopen : s.sessions[p].state ≠ .opened) (hcheck : ∀ cmd, inSession p cmd s = refuse st s) :
    exec (r.toInstr p tag) s = .next (replied p tag st [] s) := by
  obtain ⟨cmd, hcmd⟩ := dispatch_of_asksForSession hasks p s.sessions[p].silenceCount
  refine exec_toInstr_of_verdict h hquiet ?_
  rw [hcmd, heardIfOpen_of_not_open hopen, hcheck]
  rfl

theorem lapses_of_not_open {r : Session} (h : r.state ≠ .opened) : r.lapses = false := by
  obtain ⟨state, limit, count, threshold, group⟩ := r
  cases state with
  | opened => exact absurd rfl h
  | closed | lapsed => rfl

theorem takeLapse_inReset (p : Port) (s : State) : (takeLapse p s).inReset = s.inReset := by
  obtain ⟨hreset, -⟩ := takeLapse_outside p s
  exact hreset

theorem finishBoundary_inReset (s : State) : (finishBoundary s).inReset = s.inReset := by
  obtain ⟨hreset, -⟩ := finishBoundary_outside s
  exact hreset

/-- Settles O31: what comes first is taken once (`finishBoundary_twice`, `takeLapse_twice`); then `inSession` answers. -/
theorem sessionCheck : Obligations.SessionCheck := by
  intro r p tag s hreset
  refine ⟨fun hr => ?_, fun hstart hstop hlocked _ => ?_, fun hnop hstatus hopen hquiet hlocked => ?_⟩
  · have hsets : setsTimebase r = true := setsTimebase_iff.mpr hr
    rw [exec_toInstr_of_running hreset, exec_toInstr_of_running ((finishBoundary_inReset s).trans hreset),
      takes_of_timebase hsets, takeTimebaseRequest, takeTimebaseRequest, finishBoundary_twice]
  · have hplain : setsTimebase r = false :=
      Bool.eq_false_iff.mpr fun hsets => (setsTimebase_iff.mp hsets).elim hstart hstop
    refine ⟨takeLapse p s, congrArg _ (whileRunning_of_awake (takeLapse p) s ⟨hreset, hlocked⟩), ?_⟩
    have hsame : takes p tag r (takeLapse p s) = takes p tag r s := by
      rw [takes_of_plain hplain, takeRequest, takeRequest, takeLocked_of_not_due s hlocked,
        takeLocked_of_not_due _ (takeLapse_locked hlocked), takeLapse_twice]
    beta_reduce
    rw [exec_toInstr_of_running hreset, exec_toInstr_of_running ((takeLapse_inReset p s).trans hreset), hsame]
  · have hasks : asksForSession r = true := by
      cases r with
      | nop => exact absurd rfl hnop
      | status n => exact absurd rfl (hstatus n)
      | sessionOpen a b => exact absurd rfl (hopen a b)
      | _ => rfl
    have hrefused (st : Status) (hclosed : s.sessions[p].state ≠ .opened)
        (hcheck : ∀ cmd, inSession p cmd s = refuse st s) :
        exec (r.toInstr p tag) s = .next (replied p tag st [] s) :=
      exec_toInstr_of_not_open hasks ⟨⟨hreset, hlocked⟩, lapses_of_not_open hclosed⟩ hquiet hclosed hcheck
    refine ⟨fun hstate => hrefused .noSession ?_ fun cmd => ?_, fun hstate => hrefused .lapsed ?_ fun cmd => ?_⟩
    · rw [hstate]
      exact fun h => nomatch h
    · rw [inSession, hstate]
    · rw [hstate]
      exact fun h => nomatch h
    · rw [inSession, hstate]

end Sys2Proof.Machine
end

section
/-! SUPPORT. The links stand apart (spec/11 11.2): no happening and no command looks at them. Stated of the state under other
links, `withLinks`, operation by operation. -/

namespace Sys2Proof.Machine

/-- The state under other links. -/
def withLinks (L : Vector Link 4) (s : State) : State := { s with links := L }

/-- An operation does not look at the links and leaves them as they are. -/
def LinksApart (f : State → State) : Prop := ∀ (L : Vector Link 4) (s : State), f (withLinks L s) = withLinks L (f s)

theorem LinksApart.comp {f g : State → State} (hf : LinksApart f) (hg : LinksApart g) :
    LinksApart fun s => f (g s) := by
  intro L s
  beta_reduce
  rw [hg, hf]

/-- A branch taken under other links, its test the same. -/
theorem ite_withLinks {c : Prop} [Decidable c] {L : Vector Link 4} {x y x' y' : State} (hx : x' = withLinks L x)
    (hy : y' = withLinks L y) : (if c then x' else y') = withLinks L (if c then x else y) := by
  rw [hx, hy]
  exact (apply_ite (withLinks L) c x y).symm

/-- A run of steps, each apart from the links. -/
theorem foldl_withLinks {α : Type} {step : State → α → State} (h : ∀ a, LinksApart fun s => step s a) (xs : List α)
    (L : Vector Link 4) (s : State) : xs.foldl step (withLinks L s) = withLinks L (xs.foldl step s) := by
  induction xs generalizing s with
  | nil => rfl
  | cons x xs ih =>
    have hstep : step (withLinks L s) x = withLinks L (step s x) := h x L s
    rw [List.foldl_cons, List.foldl_cons, hstep, ih]

/-! ### Records and the converter -/

variable (L : Vector Link 4) (s : State)

theorem emit_withLinks (f : Port → Option Event) : emit f (withLinks L s) = withLinks L (emit f s) := rfl

theorem emitAll_withLinks (e : Event) : emitAll e (withLinks L s) = withLinks L (emitAll e s) := rfl

theorem placeResult_withLinks (p : Port) (r : ResultRec) :
    placeResult p r (withLinks L s) = withLinks L (placeResult p r s) :=
  ite_withLinks rfl rfl

theorem deliverFor_withLinks (r : ConvRequest) (status : ResultStatus) :
    deliverFor r status (withLinks L s) = withLinks L (deliverFor r status s) := by
  unfold deliverFor
  split
  · rfl
  · exact placeResult_withLinks L s ..

theorem deliverAll_withLinks (rs : List ConvRequest) (status : ResultStatus) :
    deliverAll rs status (withLinks L s) = withLinks L (deliverAll rs status s) :=
  foldl_withLinks (fun r L s => deliverFor_withLinks L s r status) rs L s

theorem takeHead_withLinks : takeHead (withLinks L s) = withLinks L (takeHead s) :=
  deliverAll_withLinks L { s with conv := Converter.afterHead s s.conv.queue } _ _

theorem takeTrigger_withLinks (r : ConvRequest) : takeTrigger r (withLinks L s) = withLinks L (takeTrigger r s) := by
  refine ite_withLinks ?_ (deliverFor_withLinks L s ..)
  have hflight : (withLinks L s).conv.inFlight = s.conv.inFlight := rfl
  rw [hflight]
  cases s.conv.inFlight with
  | none => exact takeHead_withLinks L { s with conv := { s.conv with queue := s.conv.queue ++ [r] } }
  | some c => rfl

theorem abortQueue_withLinks : abortQueue (withLinks L s) = withLinks L (abortQueue s) :=
  deliverAll_withLinks L { s with conv := { s.conv with queue := [] } } _ _

/-! ### The schedule -/

theorem emptyOnce_withLinks (i : Slot) (r : SlotRec) :
    emptyOnce i r (withLinks L s) = withLinks L (emptyOnce i r s) := by
  unfold emptyOnce
  split <;> rfl

theorem fireSlot_withLinks (i : Slot) : fireSlot i (withLinks L s) = withLinks L (fireSlot i s) := by
  have hslot : (withLinks L s).slots[i] = s.slots[i] := rfl
  rw [fireSlot, fireSlot, hslot]
  cases s.slots[i] with
  | none => rfl
  | some r =>
    have htrigger := takeTrigger_withLinks L { s with slots := s.slots.set i (some { r with lastFired := some s.tb.seq }) }
      (triggerOf s i r)
    exact (congrArg (emptyOnce i r) htrigger).trans (emptyOnce_withLinks L _ i r)

theorem fireAmong_withLinks {test : State → Slot → Bool} (htest : ∀ L s i, test (withLinks L s) i = test s i) :
    fireAmong test (withLinks L s) = withLinks L (fireAmong test s) := by
  refine foldl_withLinks (fun i L s => ?_) (List.finRange 32) L s
  beta_reduce
  rw [htest]
  exact ite_withLinks (fireSlot_withLinks L s i) rfl

theorem placeAll_withLinks (rs : List (Port × ResultRec)) :
    placeAll rs (withLinks L s) = withLinks L (placeAll rs s) :=
  foldl_withLinks (fun m L s => placeResult_withLinks L s m.1 m.2) rs L s

theorem handCut_withLinks : handCut (withLinks L s) = withLinks L (handCut s) :=
  placeAll_withLinks L { s with due := { s.due with schedule := false, cut := [] } } s.due.cut

theorem fireDue_withLinks : fireDue (withLinks L s) = withLinks L (fireDue s) := by
  rw [fireDue, handCut_withLinks]
  exact fireAmong_withLinks L _ fun _ _ _ => rfl

theorem takeSchedule_withLinks : takeSchedule (withLinks L s) = withLinks L (takeSchedule s) :=
  ite_withLinks (fireDue_withLinks L s) rfl

/-! ### The commit list -/

theorem tripByEntry_withLinks (p : Port) (l : Lane) (lines : LineSet) :
    tripByEntry p l lines (withLinks L s) = withLinks L (tripByEntry p l lines s) :=
  foldl_withLinks (fun _ _ _ => rfl) (members lines) L s

theorem applyToLeased_withLinks (p : Port) (l : Lane) (w : LaneSettings) :
    applyToLeased p l w (withLinks L s) = withLinks L (applyToLeased p l w s) :=
  ite_withLinks (tripByEntry_withLinks L { s with lanes := _ } ..) rfl

theorem applyToTripped_withLinks (p : Port) (cause : LineSet) (rearm : Bool) (l : Lane) (w : LaneSettings) :
    applyToTripped p cause rearm l w (withLinks L s) = withLinks L (applyToTripped p cause rearm l w s) :=
  tripByEntry_withLinks L { s with lanes := _ } ..

theorem applyLaneSet_withLinks (l : Lane) (w : LaneSettings) :
    applyLaneSet l w (withLinks L s) = withLinks L (applyLaneSet l w s) := by
  have hlane : (withLinks L s).lanes[l] = s.lanes[l] := rfl
  rw [applyLaneSet, applyLaneSet, hlane]
  cases s.lanes[l].status with
  | free | orphaned => rfl
  | leased p => exact applyToLeased_withLinks L s p l w
  | tripped p cause rearm => exact applyToTripped_withLinks L s p cause rearm l w

theorem applyEntry_withLinks (e : Entry) : applyEntry (withLinks L s) e = withLinks L (applyEntry s e) := by
  unfold applyEntry
  split
  · exact applyLaneSet_withLinks L s ..
  · rfl
  · rfl

theorem applyCommits_withLinks : applyCommits (withLinks L s) = withLinks L (applyCommits s) := by
  have happlied := foldl_withLinks (fun e L s => applyEntry_withLinks L s e) (s.commits.filter fun e => !e.held) L
    { s with commits := s.commits.filter fun e => e.held, due := { s.due with commit := false } }
  have hfired := fireAmong_withLinks L
    ((s.commits.filter fun e => !e.held).foldl applyEntry
      { s with commits := s.commits.filter fun e => e.held, due := { s.due with commit := false } })
    (test := fun _ i => (s.commits.filter fun e => !e.held).any fun e => e.adds i) fun _ _ _ => rfl
  rw [← happlied] at hfired
  exact congrArg (reportGroups (s.commits.filter fun e => !e.held)) hfired

theorem takeCommits_withLinks : takeCommits (withLinks L s) = withLinks L (takeCommits s) :=
  ite_withLinks (applyCommits_withLinks L s) rfl

/-! ### The agreement unit -/

theorem endProposal_withLinks (n : Nat) (outcome : ProposalOutcome) :
    endProposal n outcome (withLinks L s) = withLinks L (endProposal n outcome s) := rfl

theorem takeProposalCommit_withLinks : takeProposalCommit (withLinks L s) = withLinks L (takeProposalCommit s) := by
  have hdue : (withLinks L s).due = s.due := rfl
  have hagreement : (withLinks L s).agreement = s.agreement := rfl
  rw [takeProposalCommit, takeProposalCommit, hdue, hagreement]
  split
  · split <;> rfl
  · rfl

theorem takeProposalExpiry_withLinks : takeProposalExpiry (withLinks L s) = withLinks L (takeProposalExpiry s) := by
  have hdue : (withLinks L s).due = s.due := rfl
  have hagreement : (withLinks L s).agreement = s.agreement := rfl
  rw [takeProposalExpiry, takeProposalExpiry, hdue, hagreement]
  split
  · split
    · exact ite_withLinks rfl rfl
    · rfl
  · rfl

theorem takeAgreement_withLinks : takeAgreement (withLinks L s) = withLinks L (takeAgreement s) := by
  rw [takeAgreement, takeProposalCommit_withLinks, takeProposalExpiry_withLinks]
  rfl

theorem agreementEnded_withLinks (p : Port) :
    agreementEnded p (withLinks L s) = withLinks L (agreementEnded p s) := by
  have hagreement : (withLinks L s).agreement = s.agreement := rfl
  rw [agreementEnded, agreementEnded, hagreement]
  split
  · rfl
  · exact ite_withLinks rfl (ite_withLinks rfl rfl)

/-! ### Session ends and the trip monitor -/

theorem clearFreed_withLinks (k : EndKind) (before : State) (p : Port) :
    clearFreed k before p (withLinks L s) = withLinks L (clearFreed k before p s) := by
  refine foldl_withLinks (fun t L s => ?_) (List.finRange 4) L s
  exact ite_withLinks (emit_withLinks L s _) rfl

theorem endSession_withLinks (k : EndKind) (p : Port) :
    endSession k p (withLinks L s) = withLinks L (endSession k p s) := by
  have hcleared : clearFreed k (withLinks L s) p (withLinks L (purge k p s)) = withLinks L (clearFreed k s p (purge k p s)) :=
    clearFreed_withLinks L (purge k p s) k s p
  exact (congrArg (agreementEnded p) hcleared).trans (agreementEnded_withLinks L _ p)

theorem lapsePort_withLinks (p : Port) : lapsePort p (withLinks L s) = withLinks L (lapsePort p s) := by
  rw [lapsePort, endSession_withLinks]
  rfl

theorem takeLocked_withLinks : takeLocked (withLinks L s) = withLinks L (takeLocked s) := by
  have hdue : (withLinks L s).due.locked = s.due.locked := rfl
  rw [takeLocked, takeLocked, hdue]
  split <;> rfl

theorem releaseLocked_withLinks : releaseLocked (withLinks L s) = withLinks L (releaseLocked s) :=
  ite_withLinks rfl (takeLocked_withLinks L s)

theorem takeLapse_withLinks (p : Port) : takeLapse p (withLinks L s) = withLinks L (takeLapse p s) := by
  refine ite_withLinks ?_ rfl
  rw [lapsePort_withLinks, releaseLocked_withLinks]

theorem resumeLanes_withLinks : resumeLanes (withLinks L s) = withLinks L (resumeLanes s) := by
  have hlanes (p : Port) : resumedLanes (withLinks L s) p = resumedLanes s p := rfl
  rw [resumeLanes, resumeLanes, emit_withLinks]
  simp only [hlanes]
  rfl

theorem takeResume_withLinks : takeResume (withLinks L s) = withLinks L (takeResume s) :=
  ite_withLinks (resumeLanes_withLinks L s) rfl

theorem takeResponses_withLinks : takeResponses (withLinks L s) = withLinks L (takeResponses s) := by
  rw [takeResponses, takeCommits_withLinks, takeAgreement_withLinks, takeLapse_withLinks, takeLapse_withLinks,
    takeLapse_withLinks, takeLapse_withLinks, takeResume_withLinks, takeResponses]

theorem finishBoundary_withLinks : finishBoundary (withLinks L s) = withLinks L (finishBoundary s) := by
  rw [finishBoundary, takeLocked_withLinks, takeSchedule_withLinks, takeResponses_withLinks, finishBoundary]

end Sys2Proof.Machine
end

section
/-! SUPPORT. What every command keeps to (spec/11 11.2, R169): it does not look at the links, and one that does not answer OK
changes nothing. -/

namespace Sys2Proof.Machine

/-- A command's result under other links (first) and under the state's own (second): the same but for the links, and the
state it was given unless the answer is OK. -/
def KeepsTo (L : Vector Link 4) (s : State) (other own : State × Answer) : Prop :=
  other = (withLinks L own.1, own.2) ∧ (own.2.status = .ok ∨ own.1 = s)

variable {L : Vector Link 4} {s : State}

theorem KeepsTo.refuse (st : Status) : KeepsTo L s (refuse st (withLinks L s)) (refuse st s) := ⟨rfl, .inr rfl⟩

theorem KeepsTo.refuseWith (a : Answer) : KeepsTo L s (withLinks L s, a) (s, a) := ⟨rfl, .inr rfl⟩

theorem KeepsTo.okWith {t' t : State} (bytes : List Byte) (h : t' = withLinks L t) :
    KeepsTo L s (okWith bytes t') (okWith bytes t) := ⟨by rw [h]; rfl, .inl rfl⟩

theorem KeepsTo.ite {c : Prop} [Decidable c] {x y x' y' : State × Answer} (hx : KeepsTo L s x' x)
    (hy : KeepsTo L s y' y) : KeepsTo L s (if c then x' else y') (if c then x else y) := by
  split
  · exact hx
  · exact hy

theorem KeepsTo.inSession {p : Port} {cmd : Command} (h : KeepsTo L s (cmd (withLinks L s)) (cmd s)) :
    KeepsTo L s (inSession p cmd (withLinks L s)) (inSession p cmd s) := by
  have hstate : (withLinks L s).sessions[p].state = s.sessions[p].state := rfl
  rw [Machine.inSession, Machine.inSession, hstate]
  cases s.sessions[p].state with
  | closed => exact .refuse .noSession
  | opened => exact h
  | lapsed => exact .refuse .lapsed

/-! ### Lanes, lines and slots -/

theorem keepsTo_leaseLane (p : Port) (l : Lane) : KeepsTo L s (leaseLane p l (withLinks L s)) (leaseLane p l s) := by
  have hlane : (withLinks L s).lanes[l] = s.lanes[l] := rfl
  rw [leaseLane, leaseLane, hlane]
  cases s.lanes[l].status with
  | free => exact .okWith _ rfl
  | orphaned => exact .okWith _ rfl
  | leased q => exact .ite (.okWith _ rfl) (.refuseWith _)
  | tripped q cause rearm => exact .ite (.okWith _ rfl) (.refuseWith _)

theorem capacityRefusal_withLinks (p : Port) : capacityRefusal (withLinks L s) p = capacityRefusal s p := rfl

theorem keepsTo_stageSettings (p : Port) (l : Lane) (w : LaneSettings) :
    KeepsTo L s (stageSettings p l w (withLinks L s)) (stageSettings p l w s) := by
  refine .ite (.refuse .notOwner) (.ite (.refuse .doesNotFit) ?_)
  rw [capacityRefusal_withLinks]
  split
  · exact .refuse _
  · exact .okWith _ rfl

theorem keepsTo_stageSlot (p : Port) (r : SlotRec) :
    KeepsTo L s (stageSlot p r (withLinks L s)) (stageSlot p r s) := by
  have hempty : emptySlot? (withLinks L s) = emptySlot? s := rfl
  rw [stageSlot, stageSlot, hempty]
  split
  · exact .refuse .tableFull
  · refine .ite (.refuse .doesNotFit) ?_
    rw [capacityRefusal_withLinks]
    split
    · exact .refuse _
    · exact .okWith _ rfl

theorem keepsTo_removeSlot (p : Port) (i : Slot) (r : SlotRec) :
    KeepsTo L s (removeSlot p i r (withLinks L s)) (removeSlot p i r s) := by
  unfold removeSlot
  split
  · exact .okWith _ rfl
  · rw [capacityRefusal_withLinks]
    split
    · exact .refuse _
    · exact .okWith _ rfl
  · exact .okWith _ rfl

theorem keepsTo_claimLine (p : Port) (t : Line) : KeepsTo L s (claimLine p t (withLinks L s)) (claimLine p t s) := by
  have hline : (withLinks L s).trips[t] = s.trips[t] := rfl
  rw [claimLine, claimLine, hline]
  cases s.trips[t].ownership with
  | free => exact .okWith _ rfl
  | orphaned => exact .okWith _ rfl
  | owned q => exact .ite (.okWith _ rfl) (.refuseWith _)

theorem releaseLine_withLinks (p : Port) (t : Line) : releaseLine p t (withLinks L s) = withLinks L (releaseLine p t s) := by
  have hcleared : (if inForce s t then clearTrip t (withLinks L s) else withLinks L s) =
      withLinks L (if inForce s t then clearTrip t s else s) := ite_withLinks rfl rfl
  have hforce : inForce (withLinks L s) t = inForce s t := rfl
  rw [releaseLine, releaseLine, hforce]
  dsimp only
  rw [hcleared]
  rfl

/-! ### The agreement unit -/

theorem keepsTo_openChecked (p : Port) (period : Nat) (source : NewSource) (votes : Nat) :
    KeepsTo L s (openChecked p period source votes (withLinks L s)) (openChecked p period source votes s) :=
  .ite (.refuse .stopped) (.ite (.refuse .busy) (.ite (.refuse .doesNotFit) (.okWith _ rfl)))

theorem keepsTo_castVote (p : Port) (pr : Proposal) (c : Choice) :
    KeepsTo L s (castVote p pr c (withLinks L s)) (castVote p pr c s) := by
  cases c with
  | accept => exact .okWith _ rfl
  | reject => exact .okWith _ rfl

theorem keepsTo_voteChecked (p : Port) (n : Nat) (c : Choice) :
    KeepsTo L s (voteChecked p n c (withLinks L s)) (voteChecked p n c s) := by
  have hagreement : (withLinks L s).agreement = s.agreement := rfl
  rw [voteChecked, voteChecked, hagreement]
  split
  · exact .refuse .noProposal
  · exact .ite (.refuse .noProposal) (.ite (.refuse .notEligible) (.ite (.refuse .alreadyVoted) (keepsTo_castVote ..)))

theorem stopTimebase_withLinks (p : Port) : stopTimebase p (withLinks L s) = withLinks L (stopTimebase p s) :=
  congrArg (emitAll (.timebaseStopped p)) (abortQueue_withLinks L { s with
    tb := { s.tb with state := .stopped }
    sync := { s.sync with grace := false }
    slots := s.slots.map fun r => r.map SlotRec.unfired
    due := { s.due with wrap := false } })

theorem startTimebase_withLinks : startTimebase (withLinks L s) = withLinks L (startTimebase s) := rfl

theorem statusPayload_withLinks (p : Port) (before : Option Nat) (selector : Selector) :
    statusPayload p before (withLinks L s) selector = statusPayload p before s selector := by
  cases selector <;> rfl

/-! ### Every command -/

theorem keepsTo_sessionOpen (p : Port) (limit threshold : Nat) :
    KeepsTo L s (cmdSessionOpen p limit threshold (withLinks L s)) (cmdSessionOpen p limit threshold s) :=
  .ite (.ite (.refuse .busy) (.okWith _ rfl)) (.refuse .range)

theorem keepsTo_status (p : Port) (before : Option Nat) (selector : Nat) :
    KeepsTo L s (cmdStatus p selector before (withLinks L s)) (cmdStatus p selector before s) := by
  rw [cmdStatus, cmdStatus]
  cases selectorOf? selector with
  | none => exact .refuse .range
  | some sel =>
    dsimp only
    rw [statusPayload_withLinks]
    exact .okWith _ rfl

theorem keepsTo_sessionClose (p : Port) :
    KeepsTo L s (cmdSessionClose p (withLinks L s)) (cmdSessionClose p s) := by
  refine .inSession ?_
  exact .okWith [] (endSession_withLinks L s .close p)

theorem keepsTo_tbStart (p : Port) : KeepsTo L s (cmdTbStart p (withLinks L s)) (cmdTbStart p s) := by
  refine .inSession ?_
  exact .ite (.refuse .busy) (.okWith [] startTimebase_withLinks)

theorem keepsTo_tbStop (p : Port) :
    KeepsTo L s (cmdTbStop p (withLinks L s)) (cmdTbStop p s) := by
  refine .inSession ?_
  exact .ite (.refuse .stopped) (.ite (.refuse .inUse) (.ite (.refuse .busy) (.okWith [] (stopTimebase_withLinks p))))

theorem keepsTo_laneLease (p : Port) (lane : Nat) :
    KeepsTo L s (cmdLaneLease p lane (withLinks L s)) (cmdLaneLease p lane s) := by
  refine .inSession ?_
  split
  · exact .refuse .range
  · exact keepsTo_leaseLane ..

theorem keepsTo_laneRelease (p : Port) (lane : Nat) :
    KeepsTo L s (cmdLaneRelease p lane (withLinks L s)) (cmdLaneRelease p lane s) := by
  refine .inSession ?_
  split
  · exact .refuse .range
  · exact .ite (.okWith [] rfl) (.refuse .notOwner)

theorem keepsTo_laneSet (p : Port) (lane onAt length active safe mask : Nat) :
    KeepsTo L s (cmdLaneSet p lane onAt length active safe mask (withLinks L s))
      (cmdLaneSet p lane onAt length active safe mask s) := by
  refine .inSession ?_
  split
  · exact keepsTo_stageSettings ..
  · exact .refuse .range

theorem keepsTo_groupBegin (p : Port) :
    KeepsTo L s (cmdGroupBegin p (withLinks L s)) (cmdGroupBegin p s) := by
  refine .inSession ?_
  exact .ite (.refuse .busy) (.okWith [] rfl)

theorem keepsTo_groupEnd (p : Port) :
    KeepsTo L s (cmdGroupEnd p (withLinks L s)) (cmdGroupEnd p s) := by
  refine .inSession ?_
  exact .ite (.okWith _ rfl) (.refuse .noGroup)

theorem keepsTo_groupCancel (p : Port) :
    KeepsTo L s (cmdGroupCancel p (withLinks L s)) (cmdGroupCancel p s) := by
  refine .inSession ?_
  exact .ite (.okWith _ rfl) (.refuse .noGroup)

theorem keepsTo_sampleAdd (p : Port) (offset channel mode divisor phase maxWait tag : Nat) :
    KeepsTo L s (cmdSampleAdd p offset channel mode divisor phase maxWait tag (withLinks L s))
      (cmdSampleAdd p offset channel mode divisor phase maxWait tag s) := by
  refine .inSession ?_
  split
  · exact keepsTo_stageSlot ..
  · exact .refuse .range

theorem keepsTo_sampleRemove (p : Port) (slot : Nat) :
    KeepsTo L s (cmdSampleRemove p slot (withLinks L s)) (cmdSampleRemove p slot s) := by
  refine .inSession ?_
  split
  case h_1 => exact .refuse .range
  case h_2 i _ =>
    have hslot : (withLinks L s).slots[i] = s.slots[i] := rfl
    rw [hslot]
    cases s.slots[i] with
    | none => exact .refuse .range
    | some r => exact .ite (keepsTo_removeSlot ..) (.refuse .notOwner)

theorem keepsTo_readResults (p : Port) (max : Nat) :
    KeepsTo L s (cmdReadResults p max (withLinks L s)) (cmdReadResults p max s) := by
  refine .inSession ?_
  exact .ite (.okWith _ rfl) (.refuse .range)

theorem keepsTo_readEvents (p : Port) (max : Nat) :
    KeepsTo L s (cmdReadEvents p max (withLinks L s)) (cmdReadEvents p max s) := by
  refine .inSession ?_
  exact .ite (.okWith _ rfl) (.refuse .range)

theorem keepsTo_tripClaim (p : Port) (line : Nat) :
    KeepsTo L s (cmdTripClaim p line (withLinks L s)) (cmdTripClaim p line s) := by
  refine .inSession ?_
  split
  · exact .refuse .range
  · exact keepsTo_claimLine ..

theorem keepsTo_tripRelease (p : Port) (line : Nat) :
    KeepsTo L s (cmdTripRelease p line (withLinks L s)) (cmdTripRelease p line s) := by
  refine .inSession ?_
  split
  · exact .refuse .range
  · exact .ite (.refuse .notOwner) (.ite (.refuse .inUse) (.okWith _ (releaseLine_withLinks p _)))

theorem keepsTo_tripSet (p : Port) (line polarity qualify mode : Nat) :
    KeepsTo L s (cmdTripSet p line polarity qualify mode (withLinks L s))
      (cmdTripSet p line polarity qualify mode s) := by
  refine .inSession ?_
  split
  · exact .ite (.okWith _ rfl) (.refuse .notOwner)
  · exact .refuse .range

theorem keepsTo_tripRearm (p : Port) (lanes : Nat) :
    KeepsTo L s (cmdTripRearm p lanes (withLinks L s)) (cmdTripRearm p lanes s) := by
  refine .inSession ?_
  exact .ite (.refuse .range) (.ite (.refuse .notOwner) (.ite (.refuseWith _) (.okWith _ rfl)))

theorem keepsTo_propose (p : Port) (period source window votes : Nat) :
    KeepsTo L s (cmdPropose p period source window votes (withLinks L s))
      (cmdPropose p period source window votes s) := by
  refine .inSession ?_
  split
  · exact .refuse .range
  · exact .ite (keepsTo_openChecked ..) (.refuse .range)

theorem keepsTo_vote (p : Port) (n choice : Nat) :
    KeepsTo L s (cmdVote p n choice (withLinks L s)) (cmdVote p n choice s) := by
  refine .inSession ?_
  split
  · exact .refuse .range
  · exact keepsTo_voteChecked ..

theorem keepsTo_withdraw (p : Port) (n : Nat) :
    KeepsTo L s (cmdWithdraw p n (withLinks L s)) (cmdWithdraw p n s) := by
  refine .inSession ?_
  have hagreement : (withLinks L s).agreement = s.agreement := rfl
  rw [hagreement]
  split
  · exact .refuse .noProposal
  · exact .ite (.refuse .noProposal) (.ite (.refuse .notOwner) (.okWith [] rfl))

theorem keepsTo_dispatch (p : Port) (before : Option Nat) (r : Request) :
    KeepsTo L s (dispatch p before r (withLinks L s)) (dispatch p before r s) := by
  cases r with
  | nop => exact .okWith [] rfl
  | sessionOpen => exact keepsTo_sessionOpen ..
  | status => exact keepsTo_status ..
  | sessionClose => exact keepsTo_sessionClose ..
  | tbStart => exact keepsTo_tbStart ..
  | tbStop => exact keepsTo_tbStop ..
  | laneLease => exact keepsTo_laneLease ..
  | laneRelease => exact keepsTo_laneRelease ..
  | laneSet => exact keepsTo_laneSet ..
  | groupBegin => exact keepsTo_groupBegin ..
  | groupEnd => exact keepsTo_groupEnd ..
  | groupCancel => exact keepsTo_groupCancel ..
  | sampleAdd => exact keepsTo_sampleAdd ..
  | sampleRemove => exact keepsTo_sampleRemove ..
  | readResults => exact keepsTo_readResults ..
  | readEvents => exact keepsTo_readEvents ..
  | tripClaim => exact keepsTo_tripClaim ..
  | tripRelease => exact keepsTo_tripRelease ..
  | tripSet => exact keepsTo_tripSet ..
  | tripRearm => exact keepsTo_tripRearm ..
  | propose => exact keepsTo_propose ..
  | vote => exact keepsTo_vote ..
  | withdraw => exact keepsTo_withdraw ..

/-! ### A request that is not answered OK -/

theorem dispatch_of_refused {p : Port} {before : Option Nat} {r : Request}
    (h : (dispatch p before r s).2.status ≠ .ok) : (dispatch p before r s).1 = s := by
  obtain ⟨-, hok | hsame⟩ := keepsTo_dispatch (L := s.links) (s := s) p before r
  · exact absurd hok h
  · exact hsame

theorem replied_link (p : Port) (tag : Nat) (st : Status) (bytes : List Byte) (s : State) :
    (replied p tag st bytes s).links[p].held.status = st :=
  congrArg (fun l : Link => l.held.status) (get_set_self s.links p _)

theorem heardIfOpen_links (p : Port) (s : State) : (heardIfOpen p s).links = s.links := by
  rw [heardIfOpen_eq_sessions]

/-- Settles O32: the command is judged on the state with the silence reset, and leaves it (`dispatch_of_refused`). -/
theorem refusedChangesNothing : Obligations.RefusedChangesNothing := by
  intro r p tag s t h hquiet hexec hrefused
  obtain ⟨⟨u, st, bytes⟩, hverdict⟩ : ∃ v, dispatch p s.sessions[p].silenceCount r (heardIfOpen p s) = v := ⟨_, rfl⟩
  obtain rfl := Host.Outcome.next.inj ((exec_toInstr_of_verdict (tag := tag) h hquiet hverdict).symm.trans hexec)
  have hsame := dispatch_of_refused (s := heardIfOpen p s) (p := p) (before := s.sessions[p].silenceCount) (r := r)
  rw [hverdict] at hsame
  obtain rfl : u = heardIfOpen p s := hsame (replied_link p tag st bytes u ▸ hrefused)
  refine ⟨rfl, fun q hq => ?_⟩
  rw [← heardIfOpen_links p s]
  exact get_set_of_ne _ _ hq

end Sys2Proof.Machine
end

section
/-! SUPPORT. A whole transaction, clocked byte by byte from the queue (spec/11 11.1, 11.2): its bytes fill the receive buffer
of its own link, and its end takes the request, which no link has a part in (`takes_withLinks`). -/

namespace Sys2Proof.Machine

/-! ### A request does not look at the links -/

theorem hear_withLinks (p : Port) (L : Vector Link 4) (s : State) : hear p (withLinks L s) = withLinks L (hear p s) := rfl

/-- A request's answer goes to its port's link; the other links stay as they were. -/
theorem takeRequest_withLinks (p : Port) (tag : Nat) (r : Request) (s : State) : ∃ resp u, ∀ L,
    takeRequest p tag (fun before => dispatch p before r) (withLinks L s) = hold p resp (withLinks L u) := by
  obtain ⟨before, hbefore⟩ : ∃ n, (takeLapse p (takeLocked s)).sessions[p].silenceCount = n := ⟨_, rfl⟩
  obtain ⟨v, hv⟩ : ∃ v, dispatch p before r (hear p (takeLapse p (takeLocked s))) = v := ⟨_, rfl⟩
  refine ⟨{ tag := byteOf tag, status := v.2.status, payload := v.2.payload }, v.1, fun L => ?_⟩
  have hstate : takeLapse p (takeLocked (withLinks L s)) = withLinks L (takeLapse p (takeLocked s)) := by
    rw [takeLocked_withLinks, takeLapse_withLinks]
  have hcount : (withLinks L (takeLapse p (takeLocked s))).sessions[p].silenceCount = before := hbefore
  obtain ⟨hother, -⟩ := keepsTo_dispatch (L := L) (s := hear p (takeLapse p (takeLocked s))) p before r
  rw [takeRequest, hstate, hcount, hear_withLinks, hother, hv]

theorem takes_withLinks (p : Port) (tag : Nat) (r : Request) (s : State) : ∃ resp u, ∀ L,
    takes p tag r (withLinks L s) = hold p resp (withLinks L u) := by
  cases hr : setsTimebase r with
  | false =>
    rw [takes_of_plain hr]
    exact takeRequest_withLinks p tag r s
  | true =>
    obtain ⟨resp, u, h⟩ := takeRequest_withLinks p tag r (finishBoundary s)
    refine ⟨resp, u, fun L => ?_⟩
    rw [takes_of_timebase hr, takeTimebaseRequest, finishBoundary_withLinks, h L]

/-- The held response replaces all of its port's link but what every transaction's end leaves. -/
theorem hold_withLinks_set (p : Port) (resp : Response) (L : Vector Link 4) (l : Link) (s : State) :
    hold p resp (withLinks (L.set p l) s) = hold p resp (withLinks L s) := by
  have hlinks : update (L.set p l) p (fun l => { l.ended with held := resp }) =
      update L p fun l => { l.ended with held := resp } := by
    rw [update, update, Vector.set_set]
    rfl
  exact congrArg (fun M => withLinks M s) hlinks

/-- The link of a request's port has no part in the request. -/
theorem takes_link (p : Port) (tag : Nat) (r : Request) (l : Link) (s : State) :
    takes p tag r (withLinks (s.links.set p l) s) = takes p tag r s := by
  obtain ⟨resp, u, h⟩ := takes_withLinks p tag r s
  rw [h, hold_withLinks_set]
  exact (h s.links).symm

/-! ### The run of a transaction -/

theorem run_succ_of_step (M : Host.Core) (n : Nat) {s t : M.State} (h : M.step s = .next t) :
    M.run (n + 1) s = M.run n t := by
  rw [Host.Core.run, h]

theorem run_of_next {n : Nat} {s t : State} {c : Instr} {rest : List Instr}
    (hexec : exec c { s with pending := rest } = .next t) :
    Sys2Proof.core.run (n + 1) ({ s with pending := c :: rest } : State) = Sys2Proof.core.run n t :=
  run_succ_of_step Sys2Proof.core n hexec

/-- The state with port p's link and the waiting commands as given. -/
def onLink (p : Port) (l : Link) (waiting : List Instr) (s : State) : State :=
  { withLinks (s.links.set p l) s with pending := waiting }

theorem onLink_link (p : Port) (l : Link) (waiting : List Instr) (s : State) : (onLink p l waiting s).links[p] = l :=
  get_set_self s.links p l

theorem exec_byte_onLink (p : Port) (b : Byte) (l : Link) (waiting : List Instr) (s : State) :
    exec (.byteClocked p b) (onLink p l waiting s) = .next (onLink p (l.clock b) waiting s) := by
  have hlinks : (onLink p l waiting s).links.set p ((onLink p l waiting s).links[p].clock b) =
      s.links.set p (l.clock b) := by
    rw [onLink_link]
    exact Vector.set_set ..
  rw [exec_byteClocked, hlinks]
  rfl

/-- The bytes of a transaction, while the receive buffer has room for them. -/
theorem run_bytes (p : Port) (bytes : List Byte) {l : Link} (hactive : l.active = true)
    (hroom : l.rx.length + bytes.length ≤ 28) (after : List Instr) (n : Nat) (s : State) :
    ∃ l' : Link, l'.active = true ∧ l'.rx = l.rx ++ bytes ∧
      Sys2Proof.core.run (bytes.length + n) (onLink p l (bytes.map (fun b => .byteClocked p b) ++ after) s) =
        Sys2Proof.core.run n (onLink p l' after s) := by
  induction bytes generalizing l with
  | nil =>
    refine ⟨l, hactive, (List.append_nil _).symm, ?_⟩
    rw [List.length_nil, Nat.zero_add]
    rfl
  | cons b bytes ih =>
    have hshort : l.rx.length < 28 := by rw [List.length_cons] at hroom; omega
    have hclock := Link.clock_of_active b hactive
    have hrx : (l.clock b).rx = l.rx ++ [b] := by rw [hclock]; exact if_pos hshort
    have hstill : (l.clock b).active = true := by rw [hclock]; exact hactive
    obtain ⟨l', hactive', hrx', hrun⟩ := ih hstill (by
      rw [hrx, List.length_append, List.length_singleton]
      rw [List.length_cons] at hroom
      omega)
    refine ⟨l', hactive', ?_, ?_⟩
    · rw [hrx', hrx, List.append_assoc, List.singleton_append]
    · rw [← hrun, List.length_cons, Nat.add_right_comm]
      exact run_of_next (exec_byte_onLink p b l _ s)

theorem exec_begin (p : Port) {s : State} (hreset : s.inReset = false) (hhigh : s.links[p].selLow = false)
    (waiting : List Instr) : exec (.transactionBegin p) { s with pending := waiting } = .next (onLink p
      { selLow := true, active := true, rx := [], clocked := 0, lastOut := none, held := s.links[p].held } waiting s) := by
  rw [← Link.select_of_high hhigh, ← hreset]
  rfl

theorem exec_end_onLink {p : Port} {l : Link} {tag : Nat} {r : Request} (hactive : l.active = true)
    (hrx : judgeBuffer l.rx = .taken tag r) (waiting : List Instr) (s : State) :
    exec (.transactionEnd p) (onLink p l waiting s) = .next (takes p tag r { s with pending := waiting }) := by
  have hlink := onLink_link p l waiting s
  have hend : endTransaction p (onLink p l waiting s) = takes p tag r (onLink p l waiting s) := by
    rw [endTransaction, hlink, hrx]
    rfl
  rw [exec_transactionEnd (by rw [hlink]; exact hactive), hend]
  exact congrArg _ (takes_link p tag r l { s with pending := waiting })

/-- Settles O29: the begin, the bytes one by one (`run_bytes`), and an end that reads the request back and takes it. -/
theorem transactionCarriesTheRequest : Obligations.TransactionCarriesTheRequest := by
  intro r p tag rest s hr htag hreset hhigh
  obtain ⟨-, -, hlength⟩ := Laws.request_shape r
  have hframe : (r.frame tag).length ≤ 28 := by
    have hcapacity : Config.rxCapacity = 28 := rfl
    simp only [Request.frame, Request.frameBody, List.length_append, List.length_cons, List.length_nil]
    omega
  obtain ⟨l, hactive, hrx, hrun⟩ := run_bytes p (r.frame tag) (l :=
    { selLow := true, active := true, rx := [], clocked := 0, lastOut := none, held := s.links[p].held }) rfl
    (by rw [List.length_nil, Nat.zero_add]; exact hframe) (.transactionEnd p :: rest) 1 s
  have hread : judgeBuffer l.rx = .taken tag r := by
    have hback := frame_readBack hr htag []
    rwa [List.append_nil, ← List.nil_append (r.frame tag), ← hrx] at hback
  rw [exec_toInstr_of_running (s := { s with pending := rest }) hreset]
  exact (run_of_next (n := (r.frame tag).length + 1) (exec_begin p hreset hhigh _)).trans
    (hrun.trans (run_of_next (n := 0) (exec_end_onLink hactive hread rest s)))

end Sys2Proof.Machine
end

section
/-! SUPPORT. What the end of a session tells the other ports, and what its release leaves, in the terms of the specification
(spec/03 R41, R45, spec/09 R148, spec/10 R159; event order: log 12). -/

namespace Sys2Proof.Machine

/-! ### What is told -/

/-- An event to every OPEN port, at one port. -/
theorem emitAll_delivery (e : Event) (s : State) (q : Port) :
    (emitAll e s).delivery[q] =
      if s.sessions[q].state = .opened then s.delivery[q].pushEvent e s.tb.seq else s.delivery[q] := by
  have h := emit_if_delivery (fun _ => true) (fun _ => e) s q
  simp only [true_and] at h
  exact h

/-- The TRIP_CLEARED events of a run of lines, at one port other than the one whose session ends. -/
theorem clearLines_delivery {k : EndKind} {before : State} {p q : Port} (hq : q ≠ p) (lines : List Line) (s : State) :
    (lines.foldl
      (fun s t =>
        if goesFree k before p t && inForce before t then
          emit (fun q => if before.trips[t].informed[q] && decide (q ≠ p) then some (.tripCleared t) else none) s
        else s)
      s).delivery[q] =
      if s.sessions[q].state = .opened then
        (lines.filter fun t => goesFree k before p t && inForce before t && before.trips[t].informed[q]).foldl
          (fun d t => d.pushEvent (.tripCleared t) s.tb.seq) s.delivery[q]
      else s.delivery[q] := by
  induction lines generalizing s with
  | nil => exact (ite_self _).symm
  | cons t lines ih =>
    rw [List.foldl_cons, List.filter_cons]
    cases hcleared : goesFree k before p t && inForce before t with
    | false =>
      rw [if_neg Bool.false_ne_true, ih, Bool.false_and, if_neg Bool.false_ne_true]
    | true =>
      rw [if_pos rfl, ih, emit_if_delivery, decide_eq_true hq, Bool.and_true, Bool.true_and]
      have hsame (f : Port → Option Event) : (emit f s).sessions[q].state = s.sessions[q].state ∧
          (emit f s).tb.seq = s.tb.seq := ⟨rfl, rfl⟩
      rw [(hsame _).1, (hsame _).2]
      by_cases hopen : s.sessions[q].state = .opened
      · rw [if_pos hopen, if_pos hopen]
        cases before.trips[t].informed[q] with
        | false => rw [if_neg fun h => Bool.false_ne_true h.1, if_neg Bool.false_ne_true]
        | true => rw [if_pos ⟨rfl, hopen⟩, if_pos rfl, List.foldl_cons]
      · rw [if_neg hopen, if_neg hopen, if_neg fun h => hopen h.2]

theorem clearFreed_delivery (k : EndKind) (before : State) {p q : Port} (hq : q ≠ p) (s : State) :
    (clearFreed k before p s).delivery[q] =
      if s.sessions[q].state = .opened then
        ((List.finRange 4).filter fun t => goesFree k before p t && inForce before t && before.trips[t].informed[q]).foldl
          (fun d t => d.pushEvent (.tripCleared t) s.tb.seq) s.delivery[q]
      else s.delivery[q] :=
  clearLines_delivery hq (List.finRange 4) s

theorem clearFreed_of_lapse (before : State) (p : Port) (s : State) : clearFreed .lapse before p s = s := by
  unfold clearFreed
  generalize List.finRange 4 = lines
  induction lines with
  | nil => rfl
  | cons t lines ih => exact ih

/-- A delivery record after the end of port p, which withdraws the proposal it made. -/
def Delivery.afterWithdrawal (p : Port) (proposal : Option Proposal) (seq : Nat) (d : Delivery) : Delivery :=
  match proposal with
  | none => d
  | some pr => if pr.proposer = p then d.pushEvent (.proposalEnded pr.id .withdrawn) seq else d

/-- The withdrawal of the proposal that the port made, at one port. -/
theorem tellWithdrawn_delivery (p : Port) (proposal : Option Proposal) (s : State) (q : Port) :
    (tellWithdrawn p proposal s).delivery[q] =
      if s.sessions[q].state = .opened then s.delivery[q].afterWithdrawal p proposal s.tb.seq else s.delivery[q] := by
  cases proposal with
  | none => exact (ite_self _).symm
  | some pr =>
    rw [tellWithdrawn, Delivery.afterWithdrawal]
    by_cases hown : pr.proposer = p
    · rw [if_pos hown, if_pos hown, emitAll_delivery]
    · rw [if_neg hown, if_neg hown, ite_self]

/-! ### What another port is told of a session end -/

section Told

variable {k : EndKind} {p q : Port} {s : State}

theorem withoutPort_session_of_other (hq : q ≠ p) : (withoutPort k p s).sessions[q] = s.sessions[q] := by
  rw [withoutPort_sessions, get_set_of_ne _ _ hq]

theorem withoutPort_delivery_of_other (hq : q ≠ p) : (withoutPort k p s).delivery[q] = s.delivery[q] := by
  rw [withoutPort_delivery, if_neg (Ne.symm hq)]

/-- A port whose session ends keeps no record. -/
theorem endSession_delivery_self : (endSession k p s).delivery[p] = .reset := by
  obtain ⟨d, hd, htells⟩ := endSession_tells k p s
  obtain ⟨hclosed, -⟩ := htells p
  have hnot : (withoutPort k p s).sessions[p].state ≠ .opened := by
    rw [withoutPort_sessions, get_set_self]
    exact Session.ended_not_opened _
  rw [hd]
  refine (hclosed hnot).trans ?_
  rw [withoutPort_delivery, if_pos rfl]

theorem endSession_delivery_of_not_open (hq : q ≠ p) (hopen : s.sessions[q].state ≠ .opened) :
    (endSession k p s).delivery[q] = s.delivery[q] := by
  obtain ⟨d, hd, htells⟩ := endSession_tells k p s
  obtain ⟨hclosed, -⟩ := htells q
  rw [hd]
  refine (hclosed ?_).trans (withoutPort_delivery_of_other hq)
  rw [withoutPort_session_of_other hq]
  exact hopen

/-- Another OPEN port is told the TRIP_CLEARED events first, then of the proposal withdrawn (log 12). -/
theorem endSession_delivery_of_open (hq : q ≠ p) (hopen : s.sessions[q].state = .opened) :
    (endSession k p s).delivery[q] =
      (clearFreed k s p (withoutPort k p s)).delivery[q].afterWithdrawal p s.agreement.proposal s.tb.seq := by
  obtain ⟨d, hd, -⟩ := clearFreed_tells k s p (withoutPort k p s)
  have hstill : (clearFreed k s p (withoutPort k p s)).sessions[q].state = .opened := by
    rw [hd]
    exact (congrArg Session.state (withoutPort_session_of_other hq)).trans hopen
  have hseq : (clearFreed k s p (withoutPort k p s)).tb.seq = s.tb.seq := by rw [hd]; rfl
  rw [endSession_eq, tellWithdrawn_delivery, if_pos hstill, hseq]

end Told

/-! ### What the release leaves -/

theorem proposalAfterEnd_eq (p : Port) (proposal : Option Proposal) :
    proposalAfterEnd p proposal =
      match proposal with
      | none => none
      | some pr =>
          if pr.proposer = p then none
          else if pr.electorate[p] then
            some { pr with
              electorate := pr.electorate.set p false
              accepted := pr.accepted.set p false
              state := if pr.accepted.set p false = pr.electorate.set p false then .accepted else pr.state }
          else some pr := by
  cases proposal with
  | none => rfl
  | some pr =>
    rw [proposalAfterEnd]
    dsimp only
    rw [Proposal.without, eraseId_eq_set, eraseId_eq_set]

theorem namedByOther_iff {s : State} {p : Port} {t : Line} :
    namedByOther s p t = true ↔ ∃ l : Lane, s.lanes[l].settings.tripMask[t] = true ∧
      s.lanes[l].status.owner? ≠ none ∧ s.lanes[l].status.owner? ≠ some p := by
  rw [namedByOther, someId_eq_true]
  refine exists_congr fun l => ?_
  cases s.lanes[l].status.owner? with
  | none => simp
  | some q => simp [and_comm]

/-- A close frees the lines of the port that no other port's lane names. -/
theorem goesFree_close (s : State) (p : Port) (t : Line) :
    goesFree .close s p t =
      (decide (s.trips[t].ownership = .owned p) &&
        !decide (∃ l : Lane, s.lanes[l].settings.tripMask[t] = true ∧
          s.lanes[l].status.owner? ≠ none ∧ s.lanes[l].status.owner? ≠ some p)) := by
  rw [goesFree, Bool.eq_iff_iff]
  simp only [Bool.and_eq_true, Bool.not_eq_true', decide_eq_true_eq, decide_eq_false_iff_not, ownsLine_iff,
    ← namedByOther_iff, Bool.not_eq_true]

/-! ### `session_close` -/

theorem withoutPort_close_heard (p : Port) (s : State) : withoutPort .close p (heard p s) = withoutPort .close p s := by
  have hsessions : (heard p s).sessions.set p .reset = s.sessions.set p .reset := Vector.set_set ..
  exact congrArg (fun sessions => { withoutPort .close p s with sessions := sessions }) hsessions

/-- A close does not look at the silence count of its own port. -/
theorem endSession_close_heard (p : Port) (s : State) : endSession .close p (heard p s) = endSession .close p s := by
  rw [endSession_eq, endSession_eq, withoutPort_close_heard]
  rfl

theorem exec_sessionClose {p : Port} {s : State} (ready : Ready s p) (tag : Nat) :
    exec (.sessionClose p tag) s = .next (replied p tag .ok [] (endSession .close p s)) := by
  rw [← endSession_close_heard]
  exact congrArg _ (takeRequest_inSession_of_verdict ready rfl)

/-- Settles O36: the release is `withoutPort`, and `endSession_delivery_of_open` says what the others are told. -/
theorem sessionCloses : Obligations.SessionCloses := by
  intro p tag s ready
  refine ⟨_, exec_sessionClose ready tag, ?_⟩
  beta_reduce
  intro named freed
  have hfreed (k : Line) : goesFree .close s p k = freed k := goesFree_close s p k
  obtain ⟨d, hd, -⟩ := endSession_tells .close p s
  refine ⟨?_, fun l => ?_, fun k => ?_, fun i => ?_, ?_, ?_, ?_, ?_, ?_, fun q hq => ?_, ?_, ?_, ?_⟩
  · rw [hd]
    rfl
  · rw [hd]
    exact withoutPort_lanes .close p s l
  · rw [hd, ← hfreed]
    refine (withoutPort_trips .close p s k).trans ?_
    cases hfree : goesFree .close s p k with
    | true => exact lineEnded_of_freed hfree
    | false => exact lineEnded_of_kept hfree
  · rw [hd]
    exact withoutPort_slots .close p s i
  · rw [hd]
    rfl
  · rw [hd]
    rfl
  · rw [hd]
    rfl
  · rw [hd]
    rfl
  · exact endSession_delivery_self
  · change (endSession .close p s).delivery[q] = _
    by_cases hopen : s.sessions[q].state = .opened
    · have htold := endSession_delivery_of_open (k := .close) hq hopen
      rw [clearFreed_delivery _ _ hq, withoutPort_session_of_other hq, if_pos hopen,
        withoutPort_delivery_of_other hq] at htold
      simp only [hfreed] at htold
      rw [if_pos hopen]
      exact htold
    · rw [if_neg hopen, endSession_delivery_of_not_open hq hopen]
  · rw [hd]
    exact congrArg (fun proposal => { s.agreement with proposal := proposal }) (proposalAfterEnd_eq p _)
  · simp only [← hfreed]
    rw [hd]
    rfl
  · rw [hd]
    rfl

end Sys2Proof.Machine
end

section
/-! SUPPORT. The lapse of a port (spec/03 R44 to R46, spec/02 R34; log 12, log 29): the session end, PORT_LAPSED to the others,
and after the last lapse due a SYNC_LOCKED that waits. -/

namespace Sys2Proof.Machine

variable {p q : Port} {s : State}

theorem lanesOwned_eq (s : State) (p : Port) :
    lanesOwned s p = (List.finRange 16).countP fun l => decide (s.lanes[l].status.owner? = some p) :=
  List.countP_eq_length_filter.symm

theorem lapses_of_reached {r : Session} {n : Nat} (hopen : r.state = .opened) (hlimit : r.silenceLimit = some n)
    (hcount : r.silenceCount = some n) : r.lapses = true := by
  rw [Session.lapses, hopen, hcount, hlimit]
  exact decide_eq_true (Nat.le_refl n)

/-! ### The lapse itself -/

/-- A lapse leaves what its release leaves, but for the records of what it told. -/
theorem lapsePort_eq (p : Port) (s : State) :
    lapsePort p s = { withoutPort .lapse p s with delivery := (lapsePort p s).delivery } := by
  obtain ⟨d, hd, -⟩ := (endSession_tells .lapse p s).trans (emitAll_tells (.portLapsed p (lanesOwned s p)) _)
  have heq : lapsePort p s = { withoutPort .lapse p s with delivery := d } := hd
  rw [heq]

theorem lapsePort_session_self : (lapsePort p s).sessions[p].state ≠ .opened := by
  rw [lapsePort_eq]
  change (s.sessions.set p (s.sessions[p].ended .lapse))[p].state ≠ .opened
  rw [get_set_self]
  exact Session.ended_not_opened _

theorem lapsePort_session_of_other (hq : q ≠ p) : (lapsePort p s).sessions[q] = s.sessions[q] := by
  rw [lapsePort_eq]
  exact withoutPort_session_of_other hq

theorem lapsePort_delivery (q : Port) :
    (lapsePort p s).delivery[q] =
      if (endSession .lapse p s).sessions[q].state = .opened then
        (endSession .lapse p s).delivery[q].pushEvent (.portLapsed p (lanesOwned s p)) (endSession .lapse p s).tb.seq
      else (endSession .lapse p s).delivery[q] := emitAll_delivery ..

theorem endSession_session (k : EndKind) (p q : Port) (s : State) :
    (endSession k p s).sessions[q] = (withoutPort k p s).sessions[q] := by
  obtain ⟨d, hd, -⟩ := endSession_tells k p s
  rw [hd]

theorem endSession_tb (k : EndKind) (p : Port) (s : State) : (endSession k p s).tb = s.tb := by
  obtain ⟨d, hd, -⟩ := endSession_tells k p s
  rw [hd]
  rfl

theorem lapsePort_delivery_self : (lapsePort p s).delivery[p] = .reset := by
  rw [lapsePort_delivery, if_neg ?_, endSession_delivery_self]
  rw [endSession_session, withoutPort_sessions, get_set_self]
  exact Session.ended_not_opened _

theorem lapsePort_delivery_of_not_open (hq : q ≠ p) (hopen : s.sessions[q].state ≠ .opened) :
    (lapsePort p s).delivery[q] = s.delivery[q] := by
  rw [lapsePort_delivery, endSession_session, withoutPort_session_of_other hq, if_neg hopen,
    endSession_delivery_of_not_open hq hopen]

/-- Another OPEN port is told of a proposal withdrawn, then of the lapse (log 12). -/
theorem lapsePort_delivery_of_open (hq : q ≠ p) (hopen : s.sessions[q].state = .opened) :
    (lapsePort p s).delivery[q] =
      (s.delivery[q].afterWithdrawal p s.agreement.proposal s.tb.seq).pushEvent (.portLapsed p (lanesOwned s p)) s.tb.seq := by
  rw [lapsePort_delivery, endSession_session, withoutPort_session_of_other hq, if_pos hopen, endSession_tb,
    endSession_delivery_of_open hq hopen, clearFreed_of_lapse, withoutPort_delivery_of_other hq]

/-! ### The SYNC_LOCKED that waits for it -/

/-- No other lapse is due: the lapse of p is the last. -/
abbrev LastLapse (s : State) (p : Port) : Prop := ∀ q : Port, q ≠ p → s.sessions[q].lapses = false

theorem releaseLocked_of_last (h : LastLapse s p) : releaseLocked (lapsePort p s) = takeLocked (lapsePort p s) := by
  refine releaseLocked_of_noLapse fun q => ?_
  by_cases hq : q = p
  · subst hq
    exact lapses_of_not_open lapsePort_session_self
  · rw [lapsePort_session_of_other hq]
    exact h q hq

theorem releaseLocked_of_not_last (h : ¬ LastLapse s p) : releaseLocked (lapsePort p s) = lapsePort p s := by
  obtain ⟨q, hq⟩ := not_forall.mp h
  obtain ⟨hne, hlapses⟩ := Classical.not_imp.mp hq
  refine releaseLocked_of_lapse ⟨q, ?_⟩
  rw [lapsePort_session_of_other hne]
  exact (Bool.not_eq_false _).mp hlapses

theorem takeLocked_eq (s : State) :
    takeLocked s = { s with due := { s.due with locked := none }, delivery := (takeLocked s).delivery } := by
  obtain ⟨d, hd⟩ := takeLocked_frame s
  rw [hd]

/-- A delivery record after a SYNC_LOCKED that waits, if one does. -/
def Delivery.afterLocked (locked : Option Bool) (seq : Nat) (d : Delivery) : Delivery :=
  match locked with
  | none => d
  | some first => d.pushEvent (.syncLocked first) seq

theorem takeLocked_delivery (s : State) (q : Port) :
    (takeLocked s).delivery[q] =
      if s.sessions[q].state = .opened then s.delivery[q].afterLocked s.due.locked s.tb.seq else s.delivery[q] := by
  cases hlocked : s.due.locked with
  | none =>
    rw [takeLocked_of_not_due s hlocked]
    exact (ite_self _).symm
  | some first =>
    rw [takeLocked_of_waiting hlocked]
    exact emitAll_delivery ..

/-- What a lapse that is due leaves: the release, the records it told, and SYNC_LOCKED sent after the last. -/
theorem takeLapse_of_due (hdue : s.sessions[p].lapses = true) : ∃ d,
    takeLapse p s = { withoutPort .lapse p s with
      due := { (withoutPort .lapse p s).due with locked := if LastLapse s p then none else s.due.locked }
      delivery := d } ∧
    ∀ q : Port, d[q] =
      if LastLapse s p then (takeLocked (lapsePort p s)).delivery[q] else (lapsePort p s).delivery[q] := by
  have htake : takeLapse p s = releaseLocked (lapsePort p s) := if_pos hdue
  by_cases hlast : LastLapse s p
  · refine ⟨(takeLocked (lapsePort p s)).delivery, ?_, fun q => (if_pos hlast).symm⟩
    obtain ⟨d, hd⟩ : ∃ d, lapsePort p s = { withoutPort .lapse p s with delivery := d } := ⟨_, lapsePort_eq p s⟩
    rw [htake, releaseLocked_of_last hlast, if_pos hlast]
    refine (takeLocked_eq _).trans ?_
    rw [hd]
  · refine ⟨(lapsePort p s).delivery, ?_, fun q => (if_neg hlast).symm⟩
    rw [htake, releaseLocked_of_not_last hlast, if_neg hlast]
    exact lapsePort_eq p s

theorem lapsePort_tb (p : Port) (s : State) : (lapsePort p s).tb = s.tb := by
  rw [lapsePort_eq]
  rfl

theorem takeLocked_lapsePort_delivery_of_open (hq : q ≠ p) (hopen : s.sessions[q].state = .opened) :
    (takeLocked (lapsePort p s)).delivery[q] =
      (lapsePort p s).delivery[q].afterLocked s.due.locked s.tb.seq := by
  rw [takeLocked_delivery, lapsePort_session_of_other hq, if_pos hopen, lapsePort_locked, lapsePort_tb]

theorem takeLocked_lapsePort_delivery_of_not_open (hopen : (lapsePort p s).sessions[q].state ≠ .opened) :
    (takeLocked (lapsePort p s)).delivery[q] = (lapsePort p s).delivery[q] := by
  rw [takeLocked_delivery, if_neg hopen]

/-- A lapse frees no line, so no sample that is due goes. -/
theorem withoutPort_lapse_due (p : Port) (s : State) :
    (withoutPort .lapse p s).due = { s.due with
      cut := s.due.cut.filter fun m => decide (m.1 ≠ p)
      agreement := responseAfterEnd p s } := by
  have htrip : (withoutPort .lapse p s).due.trip = s.due.trip := by
    refine Vector.ext fun i hi => (withoutPort_trip_due .lapse p s ⟨i, hi⟩).trans ?_
    rw [goesFree_of_lapse, Bool.not_false, Bool.and_true]
    rfl
  exact congrArg (fun trip => { (withoutPort .lapse p s).due with trip := trip }) htrip

/-- Settles O17: the release is `withoutPort`; the others are told in the order of `lapsePort_delivery_of_open`, and last of
the lock. -/
theorem portLapses : Obligations.PortLapses := by
  intro s p hreset
  have hrow : exec (.lapse p) s = .next (takeLapse p s) := by
    change Host.Outcome.next (whileRunning (takeLapse p) s) = _
    rw [whileRunning, hreset, if_neg Bool.false_ne_true]
  refine ⟨fun hnot => ?_, fun hopen hreached => ?_⟩
  · rw [hrow, takeLapse_of_not_due p s hnot]
  obtain ⟨n, hlimit, hcount⟩ := hreached
  refine ⟨_, hrow, ?_⟩
  beta_reduce
  intro last
  obtain ⟨d, heq, hdelivery⟩ := takeLapse_of_due (lapses_of_reached hopen hlimit hcount)
  have hlast : last = true ↔ LastLapse s p := decide_eq_true_iff
  rw [heq]
  refine ⟨rfl, withoutPort_lanes .lapse p s, fun k => ?_, withoutPort_slots .lapse p s, rfl, rfl, rfl, rfl, ?_,
    fun q hq hopened => ?_, fun q hq hclosed => ?_, rfl, proposalAfterEnd_eq p _, ?_, ?_⟩
  · exact (withoutPort_trips .lapse p s k).trans (lineEnded_of_kept rfl)
  · rw [hdelivery, takeLocked_lapsePort_delivery_of_not_open lapsePort_session_self, ite_self]
    exact lapsePort_delivery_self
  · dsimp only
    have htold := lapsePort_delivery_of_open hq hopened
    rw [lanesOwned_eq] at htold
    rw [hdelivery, takeLocked_lapsePort_delivery_of_open hq hopened, htold]
    cases s.due.locked with
    | none => exact ite_self _
    | some first => exact (if_congr hlast rfl rfl).symm
  · have hstill : (lapsePort p s).sessions[q].state ≠ .opened := by rwa [lapsePort_session_of_other hq]
    rw [hdelivery, takeLocked_lapsePort_delivery_of_not_open hstill, ite_self,
      lapsePort_delivery_of_not_open hq hclosed]
  · have hlocked : (if LastLapse s p then none else s.due.locked) = if last = true then none else s.due.locked :=
      (if_congr hlast rfl rfl).symm
    dsimp only
    rw [withoutPort_lapse_due, hlocked]
    rfl
  · rfl

end Sys2Proof.Machine
end
